-- ==== Sys2Proof/Word.lean ====
section
/-! DEFINITION. The values of the hardware (spec/00_scope.md R9 to R12; spec/30_encoding.md R50 to R52):
Bit, Bus and Selector, and the integer readings of a bus. -/

namespace Sys2Proof

/-- A Bit: `false` is low, 0; `true` is high, 1; there is no third value (R9, R50). -/
abbrev Bit := Bool

/-- A bus of `n` Bits (R10).  Index 0 is the MOST significant Bit: `b[i]` of the spec is `BitVec.getMsbD b i`. -/
abbrev Bus (n : Nat) := BitVec n

/-- A selector of `k` Bits, index 0 the most significant (R12, R52).  A `Selector<1>` is a plain Bit. -/
abbrev Selector (k : Nat) := BitVec k

/-- The unsigned reading `val(b)` (R11). -/
abbrev val {n : Nat} (b : BitVec n) : Nat := b.toNat

/-- The two's-complement reading `sval(b)` (R11). -/
abbrev sval {n : Nat} (b : BitVec n) : Int := b.toInt

/-- `busN(v)`: the one bus of width `n` whose reading is `v mod 2^n` (R11). -/
abbrev busN (n : Nat) (v : Int) : Bus n := BitVec.ofInt n v

end Sys2Proof
end

