-- ==== Sys2Proof/Config.lean ====
section
/-! DEFINITION. What is fixed for one piece of the hardware: the one named parameter of the spec, with its default, and
the constant signals (tie-offs). -/

namespace Sys2Proof

/-- `WIDE_DEMUX_ORDER` (spec/00_scope.md R7 (a); spec/92_eei_decisions.md D5): which output index of `demux4way` and
`demux8way` the selector value `v` drives. -/
inductive WideDemuxOrder where
  /-- value `v` drives the Bit of weight `2^v`, index `N-1-v` (the spec's default) -/
  | significance
  /-- value `v` drives index `v` -/
  | index
deriving DecidableEq, Repr

/-- The spec's default value of the parameter (D5).  State carries the parameter; only State.reset uses this. -/
def Config.defaultOrder : WideDemuxOrder := .significance

/-- The tie-off `ZERO_N`: all Bits 0 (R11, R31). -/
abbrev Config.zeroBus (n : Nat) : Bus n := BitVec.ofNat n 0

/-- The tie-off `ONE_N`: only index `n-1` is 1 (R11, R31). -/
abbrev Config.oneBus (n : Nat) : Bus n := BitVec.ofNat n 1

/-- `ONES_N`: all Bits 1 (R11). -/
abbrev Config.onesBus (n : Nat) : Bus n := BitVec.allOnes n

end Sys2Proof
end

