-- ==== Sys2Proof/Syntax.lean ====
section
/-! DEFINITION. The syntax: the 38 cells with their port table (spec/10_state.md R29, table T29), the instructions (one
constructor per row of spec/opcode_table.json), the calls and designs a host writes, and the requests it presents. -/

namespace Sys2Proof

/-- The 38 cells (spec/00_scope.md R4), in the order of the opcode table. -/
inductive Cell where
  | nandGate
  | notGate
  | andGate
  | orGate
  | xorGate
  | muxBit
  | demuxBit
  | not4
  | not8
  | not16
  | and4
  | and8
  | and16
  | or4
  | or8
  | or16
  | xor4
  | xor8
  | xor16
  | mux4
  | mux8
  | mux16
  | or8way
  | and8way
  | mux4way16
  | mux8way16
  | demux4way
  | demux8way
  | or16way
  | halfAdder
  | fullAdder
  | adder4
  | adder8
  | adder16
  | incrementer4
  | incrementer8
  | incrementer16
  | alu
deriving DecidableEq, Repr

/-- The cells whose selector input has rows of its own in the opcode table (formats SEL1, SEL2, SEL3). -/
inductive SelCell where
  | muxBit
  | demuxBit
  | mux4
  | mux8
  | mux16
  | mux4way16
  | mux8way16
  | demux4way
  | demux8way
deriving DecidableEq, Repr

/-- The cell a selector row belongs to. -/
def SelCell.toCell : SelCell → Cell
  | .muxBit => .muxBit
  | .demuxBit => .demuxBit
  | .mux4 => .mux4
  | .mux8 => .mux8
  | .mux16 => .mux16
  | .mux4way16 => .mux4way16
  | .mux8way16 => .mux8way16
  | .demux4way => .demux4way
  | .demux8way => .demux8way

/-- The widths a bus can have: N ∈ {4, 8, 16} (spec/00_scope.md R10; spec/10_state.md R28). -/
inductive BusWidth where
  | w4
  | w8
  | w16
deriving DecidableEq, Repr

/-- The number of Bits of a bus of this width. -/
abbrev BusWidth.size : BusWidth → Nat
  | .w4 => 4
  | .w8 => 8
  | .w16 => 16

/-- The widths of a selector that is a bundle: K ∈ {2, 3}.  K = 1 is no third name here, because "a `Selector<1>` is a single
Bit" (spec/00_scope.md R12; spec/30_encoding.md R52): its type is that of a Bit. -/
inductive SelWidth where
  | k2
  | k3
deriving DecidableEq, Repr

/-- The number of Bits of a selector of this width. -/
abbrev SelWidth.size : SelWidth → Nat
  | .k2 => 2
  | .k3 => 3

/-- The types of signals, all there are (spec/10_state.md R28): a Bit, a bus of width 4, 8 or 16, a selector of width 1 (a Bit),
2 or 3, and the two-element bundle `[Bit;2]` of `demux` (which is not a `Bus`: spec/30_encoding.md R53). -/
inductive SigType where
  | bit
  | bus (w : BusWidth)
  | sel (k : SelWidth)
  | pair
deriving DecidableEq, Repr

/-- How many Bits a signal of the type has. -/
def SigType.width : SigType → Nat
  | .bit => 1
  | .bus w => w.size
  | .sel k => k.size
  | .pair => 2

/-- A signal: a value with its type.  No value of another width can be written down (spec/00_scope.md R14). -/
inductive Signal where
  | bit (b : Bit)
  | bus (w : BusWidth) (b : Bus w.size)
  | sel (k : SelWidth) (s : Selector k.size)
  | pair (e0 e1 : Bit)
deriving DecidableEq, Repr

/-- The type of a signal. -/
def Signal.ty : Signal → SigType
  | .bit _ => .bit
  | .bus w _ => .bus w
  | .sel k _ => .sel k
  | .pair _ _ => .pair

/-- Table T29, inputs: name and type of every input port of every cell, in port order (R29).  A one-Bit
selector is a Bit (R12). -/
def Cell.inputs : Cell → List (String × SigType)
  | .nandGate => [("a", .bit), ("b", .bit)]
  | .notGate => [("a", .bit)]
  | .andGate => [("a", .bit), ("b", .bit)]
  | .orGate => [("a", .bit), ("b", .bit)]
  | .xorGate => [("a", .bit), ("b", .bit)]
  | .muxBit => [("a", .bit), ("b", .bit), ("s", .bit)]
  | .demuxBit => [("i", .bit), ("s", .bit)]
  | .not4 => [("a", .bus .w4)]
  | .not8 => [("a", .bus .w8)]
  | .not16 => [("a", .bus .w16)]
  | .and4 => [("a", .bus .w4), ("b", .bus .w4)]
  | .and8 => [("a", .bus .w8), ("b", .bus .w8)]
  | .and16 => [("a", .bus .w16), ("b", .bus .w16)]
  | .or4 => [("a", .bus .w4), ("b", .bus .w4)]
  | .or8 => [("a", .bus .w8), ("b", .bus .w8)]
  | .or16 => [("a", .bus .w16), ("b", .bus .w16)]
  | .xor4 => [("a", .bus .w4), ("b", .bus .w4)]
  | .xor8 => [("a", .bus .w8), ("b", .bus .w8)]
  | .xor16 => [("a", .bus .w16), ("b", .bus .w16)]
  | .mux4 => [("a", .bus .w4), ("b", .bus .w4), ("s", .bit)]
  | .mux8 => [("a", .bus .w8), ("b", .bus .w8), ("s", .bit)]
  | .mux16 => [("a", .bus .w16), ("b", .bus .w16), ("s", .bit)]
  | .or8way => [("a", .bus .w8)]
  | .and8way => [("a", .bus .w8)]
  | .mux4way16 => [("a", .bus .w16), ("b", .bus .w16), ("c", .bus .w16), ("d", .bus .w16), ("s", .sel .k2)]
  | .mux8way16 => [("a", .bus .w16), ("b", .bus .w16), ("c", .bus .w16), ("d", .bus .w16), ("e", .bus .w16), ("f", .bus .w16), ("g", .bus .w16), ("h", .bus .w16), ("s", .sel .k3)]
  | .demux4way => [("i", .bit), ("s", .sel .k2)]
  | .demux8way => [("i", .bit), ("s", .sel .k3)]
  | .or16way => [("a", .bus .w16)]
  | .halfAdder => [("a", .bit), ("b", .bit)]
  | .fullAdder => [("a", .bit), ("b", .bit), ("c", .bit)]
  | .adder4 => [("a", .bus .w4), ("b", .bus .w4)]
  | .adder8 => [("a", .bus .w8), ("b", .bus .w8)]
  | .adder16 => [("a", .bus .w16), ("b", .bus .w16)]
  | .incrementer4 => [("a", .bus .w4)]
  | .incrementer8 => [("a", .bus .w8)]
  | .incrementer16 => [("a", .bus .w16)]
  | .alu => [("x", .bus .w16), ("y", .bus .w16), ("zx", .bit), ("nx", .bit), ("zy", .bit), ("ny", .bit), ("f", .bit), ("no", .bit)]

/-- Table T29, outputs: name and type of every output port of every cell (R29).  There is no carry-out and no overflow
port anywhere (spec/44_arithmetic.md R136; spec/45_alu.md R160). -/
def Cell.outputs : Cell → List (String × SigType)
  | .nandGate => [("out", .bit)]
  | .notGate => [("out", .bit)]
  | .andGate => [("out", .bit)]
  | .orGate => [("out", .bit)]
  | .xorGate => [("out", .bit)]
  | .muxBit => [("out", .bit)]
  | .demuxBit => [("out", .pair)]
  | .not4 => [("out", .bus .w4)]
  | .not8 => [("out", .bus .w8)]
  | .not16 => [("out", .bus .w16)]
  | .and4 => [("out", .bus .w4)]
  | .and8 => [("out", .bus .w8)]
  | .and16 => [("out", .bus .w16)]
  | .or4 => [("out", .bus .w4)]
  | .or8 => [("out", .bus .w8)]
  | .or16 => [("out", .bus .w16)]
  | .xor4 => [("out", .bus .w4)]
  | .xor8 => [("out", .bus .w8)]
  | .xor16 => [("out", .bus .w16)]
  | .mux4 => [("out", .bus .w4)]
  | .mux8 => [("out", .bus .w8)]
  | .mux16 => [("out", .bus .w16)]
  | .or8way => [("out", .bit)]
  | .and8way => [("out", .bit)]
  | .mux4way16 => [("out", .bus .w16)]
  | .mux8way16 => [("out", .bus .w16)]
  | .demux4way => [("out", .bus .w4)]
  | .demux8way => [("out", .bus .w8)]
  | .or16way => [("out", .bit)]
  | .halfAdder => [("carry", .bit), ("sum", .bit)]
  | .fullAdder => [("carry", .bit), ("sum", .bit)]
  | .adder4 => [("out", .bus .w4)]
  | .adder8 => [("out", .bus .w8)]
  | .adder16 => [("out", .bus .w16)]
  | .incrementer4 => [("out", .bus .w4)]
  | .incrementer8 => [("out", .bus .w8)]
  | .incrementer16 => [("out", .bus .w16)]
  | .alu => [("out", .bus .w16), ("zero", .bit), ("negative", .bit)]

/-- The input types of a cell, in port order. -/
def Cell.inputTypes (c : Cell) : List SigType := c.inputs.map Prod.snd

/-- The output types of a cell, in port order. -/
def Cell.outputTypes (c : Cell) : List SigType := c.outputs.map Prod.snd

/-- The length of a cell's input vector: all its input ports side by side (spec/30_encoding.md R65). -/
def Cell.width (c : Cell) : Nat := (c.inputTypes.map SigType.width).sum

/-- The instructions: ONE CONSTRUCTOR PER ROW of spec/opcode_table.json.  An instruction is one evaluation with a value on
every input port (spec/00_scope.md R8).  A control word row (format ALUCTL) leaves the ports `x`, `y` open; a selector
row (SEL1, SEL2, SEL3) leaves every port but the selector open; a cell row (CELL) leaves every port open.  The selector
port `s` is written `sel`. -/
inductive Instr where
  -- format ALUCTL (spec/30_encoding.md R54, R59): `alu` with the control word fixed
  | aluAnd (x y : Bus 16)  -- 000000, R186
  | aluW000001 (x y : Bus 16)  -- 000001, R200
  | aluAdd (x y : Bus 16)  -- 000010, R183
  | aluW000011 (x y : Bus 16)  -- 000011, R201
  | aluW000100 (x y : Bus 16)  -- 000100, R202
  | aluW000101 (x y : Bus 16)  -- 000101, R203
  | aluW000110 (x y : Bus 16)  -- 000110, R204
  | aluSubYX (x y : Bus 16)  -- 000111, R185
  | aluW001000 (x y : Bus 16)  -- 001000, R205
  | aluW001001 (x y : Bus 16)  -- 001001, R206
  | aluW001010 (x y : Bus 16)  -- 001010, R207
  | aluW001011 (x y : Bus 16)  -- 001011, R208
  | aluX (x y : Bus 16)  -- 001100, R173
  | aluNotX (x y : Bus 16)  -- 001101, R175
  | aluDecX (x y : Bus 16)  -- 001110, R181
  | aluNegX (x y : Bus 16)  -- 001111, R177
  | aluW010000 (x y : Bus 16)  -- 010000, R209
  | aluW010001 (x y : Bus 16)  -- 010001, R210
  | aluW010010 (x y : Bus 16)  -- 010010, R211
  | aluSubXY (x y : Bus 16)  -- 010011, R184
  | aluW010100 (x y : Bus 16)  -- 010100, R212
  | aluOr (x y : Bus 16)  -- 010101, R187
  | aluW010110 (x y : Bus 16)  -- 010110, R213
  | aluW010111 (x y : Bus 16)  -- 010111, R214
  | aluW011000 (x y : Bus 16)  -- 011000, R215
  | aluW011001 (x y : Bus 16)  -- 011001, R216
  | aluW011010 (x y : Bus 16)  -- 011010, R217
  | aluW011011 (x y : Bus 16)  -- 011011, R218
  | aluW011100 (x y : Bus 16)  -- 011100, R219
  | aluW011101 (x y : Bus 16)  -- 011101, R220
  | aluW011110 (x y : Bus 16)  -- 011110, R221
  | aluIncX (x y : Bus 16)  -- 011111, R179
  | aluW100000 (x y : Bus 16)  -- 100000, R222
  | aluW100001 (x y : Bus 16)  -- 100001, R223
  | aluW100010 (x y : Bus 16)  -- 100010, R224
  | aluW100011 (x y : Bus 16)  -- 100011, R225
  | aluW100100 (x y : Bus 16)  -- 100100, R226
  | aluW100101 (x y : Bus 16)  -- 100101, R227
  | aluW100110 (x y : Bus 16)  -- 100110, R228
  | aluW100111 (x y : Bus 16)  -- 100111, R229
  | aluW101000 (x y : Bus 16)  -- 101000, R230
  | aluW101001 (x y : Bus 16)  -- 101001, R231
  | aluZero (x y : Bus 16)  -- 101010, R170
  | aluW101011 (x y : Bus 16)  -- 101011, R232
  | aluW101100 (x y : Bus 16)  -- 101100, R233
  | aluW101101 (x y : Bus 16)  -- 101101, R234
  | aluW101110 (x y : Bus 16)  -- 101110, R235
  | aluW101111 (x y : Bus 16)  -- 101111, R236
  | aluY (x y : Bus 16)  -- 110000, R174
  | aluNotY (x y : Bus 16)  -- 110001, R176
  | aluDecY (x y : Bus 16)  -- 110010, R182
  | aluNegY (x y : Bus 16)  -- 110011, R178
  | aluW110100 (x y : Bus 16)  -- 110100, R237
  | aluW110101 (x y : Bus 16)  -- 110101, R238
  | aluW110110 (x y : Bus 16)  -- 110110, R239
  | aluIncY (x y : Bus 16)  -- 110111, R180
  | aluW111000 (x y : Bus 16)  -- 111000, R240
  | aluW111001 (x y : Bus 16)  -- 111001, R241
  | aluNeg1 (x y : Bus 16)  -- 111010, R172
  | aluW111011 (x y : Bus 16)  -- 111011, R242
  | aluW111100 (x y : Bus 16)  -- 111100, R243
  | aluW111101 (x y : Bus 16)  -- 111101, R244
  | aluW111110 (x y : Bus 16)  -- 111110, R245
  | aluOne (x y : Bus 16)  -- 111111, R171
  -- formats SEL1, SEL2, SEL3 (R56, R57): the cell with the selector input fixed
  | muxSelA (a b : Bit)  -- 0, R84
  | muxSelB (a b : Bit)  -- 1, R84
  | demuxSelOut1 (i : Bit)  -- 0, R85
  | demuxSelOut0 (i : Bit)  -- 1, R85
  | mux4SelA (a b : Bus 4)  -- 0, R103
  | mux4SelB (a b : Bus 4)  -- 1, R103
  | mux8SelA (a b : Bus 8)  -- 0, R104
  | mux8SelB (a b : Bus 8)  -- 1, R104
  | mux16SelA (a b : Bus 16)  -- 0, R105
  | mux16SelB (a b : Bus 16)  -- 1, R105
  | mux4way16SelA (a b c d : Bus 16)  -- 00, R112
  | mux4way16SelB (a b c d : Bus 16)  -- 01, R112
  | mux4way16SelC (a b c d : Bus 16)  -- 10, R112
  | mux4way16SelD (a b c d : Bus 16)  -- 11, R112
  | mux8way16SelA (a b c d e f g h : Bus 16)  -- 000, R113
  | mux8way16SelB (a b c d e f g h : Bus 16)  -- 001, R113
  | mux8way16SelC (a b c d e f g h : Bus 16)  -- 010, R113
  | mux8way16SelD (a b c d e f g h : Bus 16)  -- 011, R113
  | mux8way16SelE (a b c d e f g h : Bus 16)  -- 100, R113
  | mux8way16SelF (a b c d e f g h : Bus 16)  -- 101, R113
  | mux8way16SelG (a b c d e f g h : Bus 16)  -- 110, R113
  | mux8way16SelH (a b c d e f g h : Bus 16)  -- 111, R113
  | demux4waySelV0 (i : Bit)  -- 00, R114
  | demux4waySelV1 (i : Bit)  -- 01, R114
  | demux4waySelV2 (i : Bit)  -- 10, R114
  | demux4waySelV3 (i : Bit)  -- 11, R114
  | demux8waySelV0 (i : Bit)  -- 000, R115
  | demux8waySelV1 (i : Bit)  -- 001, R115
  | demux8waySelV2 (i : Bit)  -- 010, R115
  | demux8waySelV3 (i : Bit)  -- 011, R115
  | demux8waySelV4 (i : Bit)  -- 100, R115
  | demux8waySelV5 (i : Bit)  -- 101, R115
  | demux8waySelV6 (i : Bit)  -- 110, R115
  | demux8waySelV7 (i : Bit)  -- 111, R115
  -- format CELL (R65): every input port open
  | nandGate (a b : Bit)  -- R70
  | notGate (a : Bit)  -- R80
  | andGate (a b : Bit)  -- R81
  | orGate (a b : Bit)  -- R82
  | xorGate (a b : Bit)  -- R83
  | muxBit (a b sel : Bit)  -- R84
  | demuxBit (i sel : Bit)  -- R85
  | not4 (a : Bus 4)  -- R91
  | not8 (a : Bus 8)  -- R92
  | not16 (a : Bus 16)  -- R93
  | and4 (a b : Bus 4)  -- R94
  | and8 (a b : Bus 8)  -- R95
  | and16 (a b : Bus 16)  -- R96
  | or4 (a b : Bus 4)  -- R97
  | or8 (a b : Bus 8)  -- R98
  | or16 (a b : Bus 16)  -- R99
  | xor4 (a b : Bus 4)  -- R100
  | xor8 (a b : Bus 8)  -- R101
  | xor16 (a b : Bus 16)  -- R102
  | mux4 (a b : Bus 4) (sel : Bit)  -- R103
  | mux8 (a b : Bus 8) (sel : Bit)  -- R104
  | mux16 (a b : Bus 16) (sel : Bit)  -- R105
  | or8way (a : Bus 8)  -- R110
  | and8way (a : Bus 8)  -- R111
  | mux4way16 (a b c d : Bus 16) (sel : Selector 2)  -- R112
  | mux8way16 (a b c d e f g h : Bus 16) (sel : Selector 3)  -- R113
  | demux4way (i : Bit) (sel : Selector 2)  -- R114
  | demux8way (i : Bit) (sel : Selector 3)  -- R115
  | or16way (a : Bus 16)  -- R116
  | halfAdder (a b : Bit)  -- R130
  | fullAdder (a b c : Bit)  -- R131
  | adder4 (a b : Bus 4)  -- R133
  | adder8 (a b : Bus 8)  -- R134
  | adder16 (a b : Bus 16)  -- R135
  | incrementer4 (a : Bus 4)  -- R138
  | incrementer8 (a : Bus 8)  -- R139
  | incrementer16 (a : Bus 16)  -- R140
  | alu (x y : Bus 16) (zx nx zy ny f no : Bit)  -- R157
deriving DecidableEq, Repr

/-- How an evaluation is named (spec/30_encoding.md R65): by its cell (format CELL), by a control word of `alu` (ALUCTL),
or by a selector value of a cell (SEL1, SEL2, SEL3).  "A cell is selected by instantiating it, not by decoding bits": the
form is that choice, and no bits stand for it (notes/assumptions/4.md). -/
inductive Form where
  | call (c : Cell)
  | aluctl
  | sel (c : SelCell)
deriving DecidableEq, Repr

/-- The cell a form evaluates. -/
def Form.cell : Form → Cell
  | .call c => c
  | .aluctl => .alu
  | .sel c => c.toCell

/-- The length of the input vector of a form: that of its cell. -/
def Form.width (f : Form) : Nat := f.cell.width

/-- One evaluation as the host presents it: its form, and the input vector of its cell, index 0 first, one Bit per input Bit
in the order of R65 (ports in port order, each bus index 0 first).  The vector has the length of the cell's input vector by its
type, so an evaluation with a Bit missing or left over cannot be written down (spec/00_scope.md R14). -/
structure Request where
  form : Form
  bits : BitVec form.width
deriving DecidableEq, Repr

/-- A form and a list of Bits, of any length: what someone may write down as an evaluation before it is built (R61).  Building
it (Decode.lean) gives a request, or refuses it. -/
structure InputVector where
  form : Form
  bits : List Bit
deriving DecidableEq, Repr

/-- A call in the source's syntax, `cell(arg, …)` with positional arguments in port order (R63).  Nothing in this type
keeps the widths right: WellFormed's check does. -/
structure Call where
  cell : Cell
  args : List Signal
deriving DecidableEq, Repr

/-- A signal a design can connect: a value of the host or a tie-off, or output port `j` of stage `k`. -/
inductive Source where
  | lit (v : Signal)
  | out (k j : Nat)
deriving DecidableEq, Repr

/-- Wires taken out of signals, index 0 first, as the spec's notation takes them (spec/00_scope.md R10, R13): a Bit, `b[i]`,
`b[i..j]`, and `u ++ v` (of single wires, `[e0, e1, …]`).  They are wires and not a value: only as many as a type has Bits make
a signal again. -/
inductive Wires where
  | bit (s : Source)
  | index (s : Source) (i : Nat)
  | slice (s : Source) (i j : Nat)
  | cat (u v : Wires)
deriving DecidableEq, Repr

/-- Where an input port of a stage of a design is connected: a whole signal, or a signal of the given type bundled from
wires. -/
inductive Src where
  | whole (s : Source)
  | bundle (t : SigType) (u : Wires)
deriving DecidableEq, Repr

/-- One stage of a design: a cell and what each of its input ports is connected to. -/
structure Stage where
  cell : Cell
  args : List Src
deriving DecidableEq, Repr

/-- A design: a finite list of evaluations, each taking its inputs from host values and outputs of stages
(spec/70_reset_and_hazards.md R292, R297, R298). -/
abbrev Design := List Stage

/-- The call each row stands for (R63, R64): a cell row is its own call; a control word row is the `alu` call with that
word's six Bits; a selector row is its cell's call with that selector value. -/
def Instr.asCall : Instr → Call
  | .aluAnd x y => ⟨.alu, [.bus .w16 x, .bus .w16 y, .bit false, .bit false, .bit false, .bit false, .bit false, .bit false]⟩
  | .aluW000001 x y => ⟨.alu, [.bus .w16 x, .bus .w16 y, .bit false, .bit false, .bit false, .bit false, .bit false, .bit true]⟩
  | .aluAdd x y => ⟨.alu, [.bus .w16 x, .bus .w16 y, .bit false, .bit false, .bit false, .bit false, .bit true, .bit false]⟩
  | .aluW000011 x y => ⟨.alu, [.bus .w16 x, .bus .w16 y, .bit false, .bit false, .bit false, .bit false, .bit true, .bit true]⟩
  | .aluW000100 x y => ⟨.alu, [.bus .w16 x, .bus .w16 y, .bit false, .bit false, .bit false, .bit true, .bit false, .bit false]⟩
  | .aluW000101 x y => ⟨.alu, [.bus .w16 x, .bus .w16 y, .bit false, .bit false, .bit false, .bit true, .bit false, .bit true]⟩
  | .aluW000110 x y => ⟨.alu, [.bus .w16 x, .bus .w16 y, .bit false, .bit false, .bit false, .bit true, .bit true, .bit false]⟩
  | .aluSubYX x y => ⟨.alu, [.bus .w16 x, .bus .w16 y, .bit false, .bit false, .bit false, .bit true, .bit true, .bit true]⟩
  | .aluW001000 x y => ⟨.alu, [.bus .w16 x, .bus .w16 y, .bit false, .bit false, .bit true, .bit false, .bit false, .bit false]⟩
  | .aluW001001 x y => ⟨.alu, [.bus .w16 x, .bus .w16 y, .bit false, .bit false, .bit true, .bit false, .bit false, .bit true]⟩
  | .aluW001010 x y => ⟨.alu, [.bus .w16 x, .bus .w16 y, .bit false, .bit false, .bit true, .bit false, .bit true, .bit false]⟩
  | .aluW001011 x y => ⟨.alu, [.bus .w16 x, .bus .w16 y, .bit false, .bit false, .bit true, .bit false, .bit true, .bit true]⟩
  | .aluX x y => ⟨.alu, [.bus .w16 x, .bus .w16 y, .bit false, .bit false, .bit true, .bit true, .bit false, .bit false]⟩
  | .aluNotX x y => ⟨.alu, [.bus .w16 x, .bus .w16 y, .bit false, .bit false, .bit true, .bit true, .bit false, .bit true]⟩
  | .aluDecX x y => ⟨.alu, [.bus .w16 x, .bus .w16 y, .bit false, .bit false, .bit true, .bit true, .bit true, .bit false]⟩
  | .aluNegX x y => ⟨.alu, [.bus .w16 x, .bus .w16 y, .bit false, .bit false, .bit true, .bit true, .bit true, .bit true]⟩
  | .aluW010000 x y => ⟨.alu, [.bus .w16 x, .bus .w16 y, .bit false, .bit true, .bit false, .bit false, .bit false, .bit false]⟩
  | .aluW010001 x y => ⟨.alu, [.bus .w16 x, .bus .w16 y, .bit false, .bit true, .bit false, .bit false, .bit false, .bit true]⟩
  | .aluW010010 x y => ⟨.alu, [.bus .w16 x, .bus .w16 y, .bit false, .bit true, .bit false, .bit false, .bit true, .bit false]⟩
  | .aluSubXY x y => ⟨.alu, [.bus .w16 x, .bus .w16 y, .bit false, .bit true, .bit false, .bit false, .bit true, .bit true]⟩
  | .aluW010100 x y => ⟨.alu, [.bus .w16 x, .bus .w16 y, .bit false, .bit true, .bit false, .bit true, .bit false, .bit false]⟩
  | .aluOr x y => ⟨.alu, [.bus .w16 x, .bus .w16 y, .bit false, .bit true, .bit false, .bit true, .bit false, .bit true]⟩
  | .aluW010110 x y => ⟨.alu, [.bus .w16 x, .bus .w16 y, .bit false, .bit true, .bit false, .bit true, .bit true, .bit false]⟩
  | .aluW010111 x y => ⟨.alu, [.bus .w16 x, .bus .w16 y, .bit false, .bit true, .bit false, .bit true, .bit true, .bit true]⟩
  | .aluW011000 x y => ⟨.alu, [.bus .w16 x, .bus .w16 y, .bit false, .bit true, .bit true, .bit false, .bit false, .bit false]⟩
  | .aluW011001 x y => ⟨.alu, [.bus .w16 x, .bus .w16 y, .bit false, .bit true, .bit true, .bit false, .bit false, .bit true]⟩
  | .aluW011010 x y => ⟨.alu, [.bus .w16 x, .bus .w16 y, .bit false, .bit true, .bit true, .bit false, .bit true, .bit false]⟩
  | .aluW011011 x y => ⟨.alu, [.bus .w16 x, .bus .w16 y, .bit false, .bit true, .bit true, .bit false, .bit true, .bit true]⟩
  | .aluW011100 x y => ⟨.alu, [.bus .w16 x, .bus .w16 y, .bit false, .bit true, .bit true, .bit true, .bit false, .bit false]⟩
  | .aluW011101 x y => ⟨.alu, [.bus .w16 x, .bus .w16 y, .bit false, .bit true, .bit true, .bit true, .bit false, .bit true]⟩
  | .aluW011110 x y => ⟨.alu, [.bus .w16 x, .bus .w16 y, .bit false, .bit true, .bit true, .bit true, .bit true, .bit false]⟩
  | .aluIncX x y => ⟨.alu, [.bus .w16 x, .bus .w16 y, .bit false, .bit true, .bit true, .bit true, .bit true, .bit true]⟩
  | .aluW100000 x y => ⟨.alu, [.bus .w16 x, .bus .w16 y, .bit true, .bit false, .bit false, .bit false, .bit false, .bit false]⟩
  | .aluW100001 x y => ⟨.alu, [.bus .w16 x, .bus .w16 y, .bit true, .bit false, .bit false, .bit false, .bit false, .bit true]⟩
  | .aluW100010 x y => ⟨.alu, [.bus .w16 x, .bus .w16 y, .bit true, .bit false, .bit false, .bit false, .bit true, .bit false]⟩
  | .aluW100011 x y => ⟨.alu, [.bus .w16 x, .bus .w16 y, .bit true, .bit false, .bit false, .bit false, .bit true, .bit true]⟩
  | .aluW100100 x y => ⟨.alu, [.bus .w16 x, .bus .w16 y, .bit true, .bit false, .bit false, .bit true, .bit false, .bit false]⟩
  | .aluW100101 x y => ⟨.alu, [.bus .w16 x, .bus .w16 y, .bit true, .bit false, .bit false, .bit true, .bit false, .bit true]⟩
  | .aluW100110 x y => ⟨.alu, [.bus .w16 x, .bus .w16 y, .bit true, .bit false, .bit false, .bit true, .bit true, .bit false]⟩
  | .aluW100111 x y => ⟨.alu, [.bus .w16 x, .bus .w16 y, .bit true, .bit false, .bit false, .bit true, .bit true, .bit true]⟩
  | .aluW101000 x y => ⟨.alu, [.bus .w16 x, .bus .w16 y, .bit true, .bit false, .bit true, .bit false, .bit false, .bit false]⟩
  | .aluW101001 x y => ⟨.alu, [.bus .w16 x, .bus .w16 y, .bit true, .bit false, .bit true, .bit false, .bit false, .bit true]⟩
  | .aluZero x y => ⟨.alu, [.bus .w16 x, .bus .w16 y, .bit true, .bit false, .bit true, .bit false, .bit true, .bit false]⟩
  | .aluW101011 x y => ⟨.alu, [.bus .w16 x, .bus .w16 y, .bit true, .bit false, .bit true, .bit false, .bit true, .bit true]⟩
  | .aluW101100 x y => ⟨.alu, [.bus .w16 x, .bus .w16 y, .bit true, .bit false, .bit true, .bit true, .bit false, .bit false]⟩
  | .aluW101101 x y => ⟨.alu, [.bus .w16 x, .bus .w16 y, .bit true, .bit false, .bit true, .bit true, .bit false, .bit true]⟩
  | .aluW101110 x y => ⟨.alu, [.bus .w16 x, .bus .w16 y, .bit true, .bit false, .bit true, .bit true, .bit true, .bit false]⟩
  | .aluW101111 x y => ⟨.alu, [.bus .w16 x, .bus .w16 y, .bit true, .bit false, .bit true, .bit true, .bit true, .bit true]⟩
  | .aluY x y => ⟨.alu, [.bus .w16 x, .bus .w16 y, .bit true, .bit true, .bit false, .bit false, .bit false, .bit false]⟩
  | .aluNotY x y => ⟨.alu, [.bus .w16 x, .bus .w16 y, .bit true, .bit true, .bit false, .bit false, .bit false, .bit true]⟩
  | .aluDecY x y => ⟨.alu, [.bus .w16 x, .bus .w16 y, .bit true, .bit true, .bit false, .bit false, .bit true, .bit false]⟩
  | .aluNegY x y => ⟨.alu, [.bus .w16 x, .bus .w16 y, .bit true, .bit true, .bit false, .bit false, .bit true, .bit true]⟩
  | .aluW110100 x y => ⟨.alu, [.bus .w16 x, .bus .w16 y, .bit true, .bit true, .bit false, .bit true, .bit false, .bit false]⟩
  | .aluW110101 x y => ⟨.alu, [.bus .w16 x, .bus .w16 y, .bit true, .bit true, .bit false, .bit true, .bit false, .bit true]⟩
  | .aluW110110 x y => ⟨.alu, [.bus .w16 x, .bus .w16 y, .bit true, .bit true, .bit false, .bit true, .bit true, .bit false]⟩
  | .aluIncY x y => ⟨.alu, [.bus .w16 x, .bus .w16 y, .bit true, .bit true, .bit false, .bit true, .bit true, .bit true]⟩
  | .aluW111000 x y => ⟨.alu, [.bus .w16 x, .bus .w16 y, .bit true, .bit true, .bit true, .bit false, .bit false, .bit false]⟩
  | .aluW111001 x y => ⟨.alu, [.bus .w16 x, .bus .w16 y, .bit true, .bit true, .bit true, .bit false, .bit false, .bit true]⟩
  | .aluNeg1 x y => ⟨.alu, [.bus .w16 x, .bus .w16 y, .bit true, .bit true, .bit true, .bit false, .bit true, .bit false]⟩
  | .aluW111011 x y => ⟨.alu, [.bus .w16 x, .bus .w16 y, .bit true, .bit true, .bit true, .bit false, .bit true, .bit true]⟩
  | .aluW111100 x y => ⟨.alu, [.bus .w16 x, .bus .w16 y, .bit true, .bit true, .bit true, .bit true, .bit false, .bit false]⟩
  | .aluW111101 x y => ⟨.alu, [.bus .w16 x, .bus .w16 y, .bit true, .bit true, .bit true, .bit true, .bit false, .bit true]⟩
  | .aluW111110 x y => ⟨.alu, [.bus .w16 x, .bus .w16 y, .bit true, .bit true, .bit true, .bit true, .bit true, .bit false]⟩
  | .aluOne x y => ⟨.alu, [.bus .w16 x, .bus .w16 y, .bit true, .bit true, .bit true, .bit true, .bit true, .bit true]⟩
  | .muxSelA a b => ⟨.muxBit, [.bit a, .bit b, .bit false]⟩
  | .muxSelB a b => ⟨.muxBit, [.bit a, .bit b, .bit true]⟩
  | .demuxSelOut1 i => ⟨.demuxBit, [.bit i, .bit false]⟩
  | .demuxSelOut0 i => ⟨.demuxBit, [.bit i, .bit true]⟩
  | .mux4SelA a b => ⟨.mux4, [.bus .w4 a, .bus .w4 b, .bit false]⟩
  | .mux4SelB a b => ⟨.mux4, [.bus .w4 a, .bus .w4 b, .bit true]⟩
  | .mux8SelA a b => ⟨.mux8, [.bus .w8 a, .bus .w8 b, .bit false]⟩
  | .mux8SelB a b => ⟨.mux8, [.bus .w8 a, .bus .w8 b, .bit true]⟩
  | .mux16SelA a b => ⟨.mux16, [.bus .w16 a, .bus .w16 b, .bit false]⟩
  | .mux16SelB a b => ⟨.mux16, [.bus .w16 a, .bus .w16 b, .bit true]⟩
  | .mux4way16SelA a b c d => ⟨.mux4way16, [.bus .w16 a, .bus .w16 b, .bus .w16 c, .bus .w16 d, .sel .k2 0b00#2]⟩
  | .mux4way16SelB a b c d => ⟨.mux4way16, [.bus .w16 a, .bus .w16 b, .bus .w16 c, .bus .w16 d, .sel .k2 0b01#2]⟩
  | .mux4way16SelC a b c d => ⟨.mux4way16, [.bus .w16 a, .bus .w16 b, .bus .w16 c, .bus .w16 d, .sel .k2 0b10#2]⟩
  | .mux4way16SelD a b c d => ⟨.mux4way16, [.bus .w16 a, .bus .w16 b, .bus .w16 c, .bus .w16 d, .sel .k2 0b11#2]⟩
  | .mux8way16SelA a b c d e f g h => ⟨.mux8way16, [.bus .w16 a, .bus .w16 b, .bus .w16 c, .bus .w16 d, .bus .w16 e, .bus .w16 f, .bus .w16 g, .bus .w16 h, .sel .k3 0b000#3]⟩
  | .mux8way16SelB a b c d e f g h => ⟨.mux8way16, [.bus .w16 a, .bus .w16 b, .bus .w16 c, .bus .w16 d, .bus .w16 e, .bus .w16 f, .bus .w16 g, .bus .w16 h, .sel .k3 0b001#3]⟩
  | .mux8way16SelC a b c d e f g h => ⟨.mux8way16, [.bus .w16 a, .bus .w16 b, .bus .w16 c, .bus .w16 d, .bus .w16 e, .bus .w16 f, .bus .w16 g, .bus .w16 h, .sel .k3 0b010#3]⟩
  | .mux8way16SelD a b c d e f g h => ⟨.mux8way16, [.bus .w16 a, .bus .w16 b, .bus .w16 c, .bus .w16 d, .bus .w16 e, .bus .w16 f, .bus .w16 g, .bus .w16 h, .sel .k3 0b011#3]⟩
  | .mux8way16SelE a b c d e f g h => ⟨.mux8way16, [.bus .w16 a, .bus .w16 b, .bus .w16 c, .bus .w16 d, .bus .w16 e, .bus .w16 f, .bus .w16 g, .bus .w16 h, .sel .k3 0b100#3]⟩
  | .mux8way16SelF a b c d e f g h => ⟨.mux8way16, [.bus .w16 a, .bus .w16 b, .bus .w16 c, .bus .w16 d, .bus .w16 e, .bus .w16 f, .bus .w16 g, .bus .w16 h, .sel .k3 0b101#3]⟩
  | .mux8way16SelG a b c d e f g h => ⟨.mux8way16, [.bus .w16 a, .bus .w16 b, .bus .w16 c, .bus .w16 d, .bus .w16 e, .bus .w16 f, .bus .w16 g, .bus .w16 h, .sel .k3 0b110#3]⟩
  | .mux8way16SelH a b c d e f g h => ⟨.mux8way16, [.bus .w16 a, .bus .w16 b, .bus .w16 c, .bus .w16 d, .bus .w16 e, .bus .w16 f, .bus .w16 g, .bus .w16 h, .sel .k3 0b111#3]⟩
  | .demux4waySelV0 i => ⟨.demux4way, [.bit i, .sel .k2 0b00#2]⟩
  | .demux4waySelV1 i => ⟨.demux4way, [.bit i, .sel .k2 0b01#2]⟩
  | .demux4waySelV2 i => ⟨.demux4way, [.bit i, .sel .k2 0b10#2]⟩
  | .demux4waySelV3 i => ⟨.demux4way, [.bit i, .sel .k2 0b11#2]⟩
  | .demux8waySelV0 i => ⟨.demux8way, [.bit i, .sel .k3 0b000#3]⟩
  | .demux8waySelV1 i => ⟨.demux8way, [.bit i, .sel .k3 0b001#3]⟩
  | .demux8waySelV2 i => ⟨.demux8way, [.bit i, .sel .k3 0b010#3]⟩
  | .demux8waySelV3 i => ⟨.demux8way, [.bit i, .sel .k3 0b011#3]⟩
  | .demux8waySelV4 i => ⟨.demux8way, [.bit i, .sel .k3 0b100#3]⟩
  | .demux8waySelV5 i => ⟨.demux8way, [.bit i, .sel .k3 0b101#3]⟩
  | .demux8waySelV6 i => ⟨.demux8way, [.bit i, .sel .k3 0b110#3]⟩
  | .demux8waySelV7 i => ⟨.demux8way, [.bit i, .sel .k3 0b111#3]⟩
  | .nandGate a b => ⟨.nandGate, [.bit a, .bit b]⟩
  | .notGate a => ⟨.notGate, [.bit a]⟩
  | .andGate a b => ⟨.andGate, [.bit a, .bit b]⟩
  | .orGate a b => ⟨.orGate, [.bit a, .bit b]⟩
  | .xorGate a b => ⟨.xorGate, [.bit a, .bit b]⟩
  | .muxBit a b sel => ⟨.muxBit, [.bit a, .bit b, .bit sel]⟩
  | .demuxBit i sel => ⟨.demuxBit, [.bit i, .bit sel]⟩
  | .not4 a => ⟨.not4, [.bus .w4 a]⟩
  | .not8 a => ⟨.not8, [.bus .w8 a]⟩
  | .not16 a => ⟨.not16, [.bus .w16 a]⟩
  | .and4 a b => ⟨.and4, [.bus .w4 a, .bus .w4 b]⟩
  | .and8 a b => ⟨.and8, [.bus .w8 a, .bus .w8 b]⟩
  | .and16 a b => ⟨.and16, [.bus .w16 a, .bus .w16 b]⟩
  | .or4 a b => ⟨.or4, [.bus .w4 a, .bus .w4 b]⟩
  | .or8 a b => ⟨.or8, [.bus .w8 a, .bus .w8 b]⟩
  | .or16 a b => ⟨.or16, [.bus .w16 a, .bus .w16 b]⟩
  | .xor4 a b => ⟨.xor4, [.bus .w4 a, .bus .w4 b]⟩
  | .xor8 a b => ⟨.xor8, [.bus .w8 a, .bus .w8 b]⟩
  | .xor16 a b => ⟨.xor16, [.bus .w16 a, .bus .w16 b]⟩
  | .mux4 a b sel => ⟨.mux4, [.bus .w4 a, .bus .w4 b, .bit sel]⟩
  | .mux8 a b sel => ⟨.mux8, [.bus .w8 a, .bus .w8 b, .bit sel]⟩
  | .mux16 a b sel => ⟨.mux16, [.bus .w16 a, .bus .w16 b, .bit sel]⟩
  | .or8way a => ⟨.or8way, [.bus .w8 a]⟩
  | .and8way a => ⟨.and8way, [.bus .w8 a]⟩
  | .mux4way16 a b c d sel => ⟨.mux4way16, [.bus .w16 a, .bus .w16 b, .bus .w16 c, .bus .w16 d, .sel .k2 sel]⟩
  | .mux8way16 a b c d e f g h sel => ⟨.mux8way16, [.bus .w16 a, .bus .w16 b, .bus .w16 c, .bus .w16 d, .bus .w16 e, .bus .w16 f, .bus .w16 g, .bus .w16 h, .sel .k3 sel]⟩
  | .demux4way i sel => ⟨.demux4way, [.bit i, .sel .k2 sel]⟩
  | .demux8way i sel => ⟨.demux8way, [.bit i, .sel .k3 sel]⟩
  | .or16way a => ⟨.or16way, [.bus .w16 a]⟩
  | .halfAdder a b => ⟨.halfAdder, [.bit a, .bit b]⟩
  | .fullAdder a b c => ⟨.fullAdder, [.bit a, .bit b, .bit c]⟩
  | .adder4 a b => ⟨.adder4, [.bus .w4 a, .bus .w4 b]⟩
  | .adder8 a b => ⟨.adder8, [.bus .w8 a, .bus .w8 b]⟩
  | .adder16 a b => ⟨.adder16, [.bus .w16 a, .bus .w16 b]⟩
  | .incrementer4 a => ⟨.incrementer4, [.bus .w4 a]⟩
  | .incrementer8 a => ⟨.incrementer8, [.bus .w8 a]⟩
  | .incrementer16 a => ⟨.incrementer16, [.bus .w16 a]⟩
  | .alu x y zx nx zy ny f no => ⟨.alu, [.bus .w16 x, .bus .w16 y, .bit zx, .bit nx, .bit zy, .bit ny, .bit f, .bit no]⟩

end Sys2Proof
end

