-- ==== Sys2Proof/WellFormed.lean ====
section
/-! DEFINITION. The static checks.  "The only error class an implementer must guard against is a structural one: mismatched
bus widths" (spec/60_exceptions.md R275; spec/00_scope.md R14; spec/30_encoding.md R61): a term that connects a signal to a
port of another type is refused when it is built, and never gets a value, a trap or a truncation.  An Instr is well typed
by construction (its fields are `Bus 4`, `Bus 8`, …), so it needs no check of its own. -/

namespace Sys2Proof

/-- Why a call is not a term of the hardware. -/
inductive BuildError where
  /-- the call has not one argument per input port (an input may not be left unconnected, R297) -/
  | wrongArity (cell : Cell) (expected got : Nat)
  /-- the argument at this position has another type than the port (R14, R61, R275) -/
  | widthMismatch (cell : Cell) (position : Nat) (expected got : SigType)
deriving DecidableEq, Repr

/-- Compare argument types with port types, position by position, and then their number. -/
def checkTypes (c : Cell) : Nat → List SigType → List SigType → Except BuildError Unit
  | _, [], [] => .ok ()
  | pos, p :: ps, t :: ts => if t = p then checkTypes c (pos + 1) ps ts else .error (.widthMismatch c pos p t)
  | pos, ps, ts => .error (.wrongArity c (pos + ps.length) (pos + ts.length))

/-- The check of a call: every port has an argument of its type, and no argument is left over (R14, R63, R275). -/
def Call.check (k : Call) : Except BuildError Unit := checkTypes k.cell 0 k.cell.inputTypes (k.args.map Signal.ty)

/-- The same as a Boolean: the argument types are the port types. -/
def Call.wf (k : Call) : Bool := k.args.map Signal.ty == k.cell.inputTypes

/-- A written vector is well formed when it has exactly the length of its cell's input vector: every input Bit has a value, and
there is nothing beyond (R61, R65, R297). -/
def InputVector.wf (v : InputVector) : Bool := v.bits.length == v.form.width

/-- The type of a source, given the output types of the stages before it; none for a stage or port that does not exist (yet). -/
def Source.type (Γ : List (List SigType)) : Source → Option SigType
  | .lit v => some v.ty
  | .out k j => (Γ[k]?).bind fun ts => ts[j]?

/-- How many wires there are; none when they cannot be taken: an index outside the bundle, a slice with `i > j` or past the
end, a slice of a signal that is no bus, a source that does not exist. -/
def Wires.count (Γ : List (List SigType)) : Wires → Option Nat
  | .bit s =>
    match s.type Γ with
    | some .bit => some 1
    | _ => none
  | .index s i =>
    match s.type Γ with
    | some (.bus w) => if i < w.size then some 1 else none
    | some (.sel k) => if i < k.size then some 1 else none
    | some .pair => if i < 2 then some 1 else none
    | _ => none
  | .slice s i j =>
    match s.type Γ with
    | some (.bus w) => if i ≤ j ∧ j < w.size then some (j - i + 1) else none
    | _ => none
  | .cat u v =>
    match u.count Γ, v.count Γ with
    | some m, some n => some (m + n)
    | _, _ => none

/-- The type of what a port is connected to; none when the connection is refused: wires bundled as a type must be as many as
the type has Bits (R14). -/
def Src.type (Γ : List (List SigType)) : Src → Option SigType
  | .whole s => s.type Γ
  | .bundle t u => if u.count Γ = some t.width then some t else none

/-- The types of a list of sources; none if one of them is refused. -/
def Src.types (Γ : List (List SigType)) : List Src → Option (List SigType)
  | [] => some []
  | s :: ss =>
    match s.type Γ, Src.types Γ ss with
    | some t, some ts => some (t :: ts)
    | _, _ => none

/-- A stage is accepted when its arguments have exactly the cell's input types; its own outputs then have the cell's
output types. -/
def Stage.check (Γ : List (List SigType)) (g : Stage) : Option (List SigType) :=
  match Src.types Γ g.args with
  | some ts => if ts = g.cell.inputTypes then some g.cell.outputTypes else none
  | none => none

/-- The check of a design, stage after stage: a stage sees only the stages before it, so a combinational loop cannot be
written down (spec/70_reset_and_hazards.md R292).  It answers the output types of every stage, or none when a connection
is refused (R14). -/
def Design.check : List (List SigType) → Design → Option (List (List SigType))
  | Γ, [] => some Γ
  | Γ, g :: d =>
    match g.check Γ with
    | some ts => Design.check (Γ ++ [ts]) d
    | none => none

end Sys2Proof
end

