-- ==== Sys2Proof/Decode.lean ====
section
/-! DEFINITION. Decoding and encoding.  The bits of an instruction are the input vector of its cell (spec/30_encoding.md
R65): the ports in port order, each bus index 0 first.  The control word is the last six Bits of the `alu` vector, and the
selector digits are the last Bits of a selector cell's vector, so the table's `encoding` of a control word or selector row
stands at the end of the vector, its rightmost digit last: bit 0 of the table's number. -/

namespace Sys2Proof

/-! ## Bits of a bundle, index 0 first -/

/-- The Bits of a bus or selector, index 0 (the most significant) first (R10, R51, R52). -/
def bitsOf : {n : Nat} → BitVec n → List Bit
  | 0, _ => []
  | n + 1, b => b.msb :: bitsOf (b.setWidth n)

/-- The bundle of width `n` whose index `i` holds element `i` of the list (a list that ends early is filled with 0; decode
never uses that). -/
def ofBits : (n : Nat) → List Bit → BitVec n
  | 0, _ => 0#0
  | n + 1, [] => BitVec.cons false (ofBits n [])
  | n + 1, b :: l => BitVec.cons b (ofBits n l)

/-- Take one Bit off the front of a vector. -/
def takeBit : List Bit → Bit × List Bit
  | [] => (false, [])
  | b :: l => (b, l)

/-- Take a bundle of `n` Bits off the front of a vector. -/
def takeBus (n : Nat) (l : List Bit) : BitVec n × List Bit := (ofBits n l, l.drop n)

/-- The Bits of a signal, element 0 first. -/
def Signal.bits : Signal → List Bit
  | .bit b => [b]
  | .bus _ b => bitsOf b
  | .sel _ s => bitsOf s
  | .pair e0 e1 => [e0, e1]

/-! ## Decoding -/

/-- The row of a control word (spec/30_encoding.md R59, table T59), by the six Bits `zx nx zy ny f no` (R54).  Every one of
the 64 words is legal (R60). -/
def controlRow (zx nx zy ny f no : Bit) (x y : Bus 16) : Instr :=
  match zx, nx, zy, ny, f, no with
  | false, false, false, false, false, false => .aluAnd x y
  | false, false, false, false, false, true => .aluW000001 x y
  | false, false, false, false, true, false => .aluAdd x y
  | false, false, false, false, true, true => .aluW000011 x y
  | false, false, false, true, false, false => .aluW000100 x y
  | false, false, false, true, false, true => .aluW000101 x y
  | false, false, false, true, true, false => .aluW000110 x y
  | false, false, false, true, true, true => .aluSubYX x y
  | false, false, true, false, false, false => .aluW001000 x y
  | false, false, true, false, false, true => .aluW001001 x y
  | false, false, true, false, true, false => .aluW001010 x y
  | false, false, true, false, true, true => .aluW001011 x y
  | false, false, true, true, false, false => .aluX x y
  | false, false, true, true, false, true => .aluNotX x y
  | false, false, true, true, true, false => .aluDecX x y
  | false, false, true, true, true, true => .aluNegX x y
  | false, true, false, false, false, false => .aluW010000 x y
  | false, true, false, false, false, true => .aluW010001 x y
  | false, true, false, false, true, false => .aluW010010 x y
  | false, true, false, false, true, true => .aluSubXY x y
  | false, true, false, true, false, false => .aluW010100 x y
  | false, true, false, true, false, true => .aluOr x y
  | false, true, false, true, true, false => .aluW010110 x y
  | false, true, false, true, true, true => .aluW010111 x y
  | false, true, true, false, false, false => .aluW011000 x y
  | false, true, true, false, false, true => .aluW011001 x y
  | false, true, true, false, true, false => .aluW011010 x y
  | false, true, true, false, true, true => .aluW011011 x y
  | false, true, true, true, false, false => .aluW011100 x y
  | false, true, true, true, false, true => .aluW011101 x y
  | false, true, true, true, true, false => .aluW011110 x y
  | false, true, true, true, true, true => .aluIncX x y
  | true, false, false, false, false, false => .aluW100000 x y
  | true, false, false, false, false, true => .aluW100001 x y
  | true, false, false, false, true, false => .aluW100010 x y
  | true, false, false, false, true, true => .aluW100011 x y
  | true, false, false, true, false, false => .aluW100100 x y
  | true, false, false, true, false, true => .aluW100101 x y
  | true, false, false, true, true, false => .aluW100110 x y
  | true, false, false, true, true, true => .aluW100111 x y
  | true, false, true, false, false, false => .aluW101000 x y
  | true, false, true, false, false, true => .aluW101001 x y
  | true, false, true, false, true, false => .aluZero x y
  | true, false, true, false, true, true => .aluW101011 x y
  | true, false, true, true, false, false => .aluW101100 x y
  | true, false, true, true, false, true => .aluW101101 x y
  | true, false, true, true, true, false => .aluW101110 x y
  | true, false, true, true, true, true => .aluW101111 x y
  | true, true, false, false, false, false => .aluY x y
  | true, true, false, false, false, true => .aluNotY x y
  | true, true, false, false, true, false => .aluDecY x y
  | true, true, false, false, true, true => .aluNegY x y
  | true, true, false, true, false, false => .aluW110100 x y
  | true, true, false, true, false, true => .aluW110101 x y
  | true, true, false, true, true, false => .aluW110110 x y
  | true, true, false, true, true, true => .aluIncY x y
  | true, true, true, false, false, false => .aluW111000 x y
  | true, true, true, false, false, true => .aluW111001 x y
  | true, true, true, false, true, false => .aluNeg1 x y
  | true, true, true, false, true, true => .aluW111011 x y
  | true, true, true, true, false, false => .aluW111100 x y
  | true, true, true, true, false, true => .aluW111101 x y
  | true, true, true, true, true, false => .aluW111110 x y
  | true, true, true, true, true, true => .aluOne x y

/-- The call of a cell, from its input vector (R65). -/
def decodeCell (c : Cell) (v : List Bit) : Instr :=
  match c with
  | .nandGate =>
    let (a, v) := takeBit v
    let (b, _) := takeBit v
    .nandGate a b
  | .notGate =>
    let (a, _) := takeBit v
    .notGate a
  | .andGate =>
    let (a, v) := takeBit v
    let (b, _) := takeBit v
    .andGate a b
  | .orGate =>
    let (a, v) := takeBit v
    let (b, _) := takeBit v
    .orGate a b
  | .xorGate =>
    let (a, v) := takeBit v
    let (b, _) := takeBit v
    .xorGate a b
  | .muxBit =>
    let (a, v) := takeBit v
    let (b, v) := takeBit v
    let (sel, _) := takeBit v
    .muxBit a b sel
  | .demuxBit =>
    let (i, v) := takeBit v
    let (sel, _) := takeBit v
    .demuxBit i sel
  | .not4 =>
    let (a, _) := takeBus 4 v
    .not4 a
  | .not8 =>
    let (a, _) := takeBus 8 v
    .not8 a
  | .not16 =>
    let (a, _) := takeBus 16 v
    .not16 a
  | .and4 =>
    let (a, v) := takeBus 4 v
    let (b, _) := takeBus 4 v
    .and4 a b
  | .and8 =>
    let (a, v) := takeBus 8 v
    let (b, _) := takeBus 8 v
    .and8 a b
  | .and16 =>
    let (a, v) := takeBus 16 v
    let (b, _) := takeBus 16 v
    .and16 a b
  | .or4 =>
    let (a, v) := takeBus 4 v
    let (b, _) := takeBus 4 v
    .or4 a b
  | .or8 =>
    let (a, v) := takeBus 8 v
    let (b, _) := takeBus 8 v
    .or8 a b
  | .or16 =>
    let (a, v) := takeBus 16 v
    let (b, _) := takeBus 16 v
    .or16 a b
  | .xor4 =>
    let (a, v) := takeBus 4 v
    let (b, _) := takeBus 4 v
    .xor4 a b
  | .xor8 =>
    let (a, v) := takeBus 8 v
    let (b, _) := takeBus 8 v
    .xor8 a b
  | .xor16 =>
    let (a, v) := takeBus 16 v
    let (b, _) := takeBus 16 v
    .xor16 a b
  | .mux4 =>
    let (a, v) := takeBus 4 v
    let (b, v) := takeBus 4 v
    let (sel, _) := takeBit v
    .mux4 a b sel
  | .mux8 =>
    let (a, v) := takeBus 8 v
    let (b, v) := takeBus 8 v
    let (sel, _) := takeBit v
    .mux8 a b sel
  | .mux16 =>
    let (a, v) := takeBus 16 v
    let (b, v) := takeBus 16 v
    let (sel, _) := takeBit v
    .mux16 a b sel
  | .or8way =>
    let (a, _) := takeBus 8 v
    .or8way a
  | .and8way =>
    let (a, _) := takeBus 8 v
    .and8way a
  | .mux4way16 =>
    let (a, v) := takeBus 16 v
    let (b, v) := takeBus 16 v
    let (c, v) := takeBus 16 v
    let (d, v) := takeBus 16 v
    let (sel, _) := takeBus 2 v
    .mux4way16 a b c d sel
  | .mux8way16 =>
    let (a, v) := takeBus 16 v
    let (b, v) := takeBus 16 v
    let (c, v) := takeBus 16 v
    let (d, v) := takeBus 16 v
    let (e, v) := takeBus 16 v
    let (f, v) := takeBus 16 v
    let (g, v) := takeBus 16 v
    let (h, v) := takeBus 16 v
    let (sel, _) := takeBus 3 v
    .mux8way16 a b c d e f g h sel
  | .demux4way =>
    let (i, v) := takeBit v
    let (sel, _) := takeBus 2 v
    .demux4way i sel
  | .demux8way =>
    let (i, v) := takeBit v
    let (sel, _) := takeBus 3 v
    .demux8way i sel
  | .or16way =>
    let (a, _) := takeBus 16 v
    .or16way a
  | .halfAdder =>
    let (a, v) := takeBit v
    let (b, _) := takeBit v
    .halfAdder a b
  | .fullAdder =>
    let (a, v) := takeBit v
    let (b, v) := takeBit v
    let (c, _) := takeBit v
    .fullAdder a b c
  | .adder4 =>
    let (a, v) := takeBus 4 v
    let (b, _) := takeBus 4 v
    .adder4 a b
  | .adder8 =>
    let (a, v) := takeBus 8 v
    let (b, _) := takeBus 8 v
    .adder8 a b
  | .adder16 =>
    let (a, v) := takeBus 16 v
    let (b, _) := takeBus 16 v
    .adder16 a b
  | .incrementer4 =>
    let (a, _) := takeBus 4 v
    .incrementer4 a
  | .incrementer8 =>
    let (a, _) := takeBus 8 v
    .incrementer8 a
  | .incrementer16 =>
    let (a, _) := takeBus 16 v
    .incrementer16 a
  | .alu =>
    let (x, v) := takeBus 16 v
    let (y, v) := takeBus 16 v
    let (zx, v) := takeBit v
    let (nx, v) := takeBit v
    let (zy, v) := takeBit v
    let (ny, v) := takeBit v
    let (f, v) := takeBit v
    let (no, _) := takeBit v
    .alu x y zx nx zy ny f no

/-- The row of a selector value, from the input vector of its cell: the selector is the last port (R56, R57). -/
def decodeSel (c : SelCell) (v : List Bit) : Instr :=
  match c with
  | .muxBit =>
    let (a, v) := takeBit v
    let (b, v) := takeBit v
    let (s0, _) := takeBit v
    match s0 with
    | false => .muxSelA a b
    | true => .muxSelB a b
  | .demuxBit =>
    let (i, v) := takeBit v
    let (s0, _) := takeBit v
    match s0 with
    | false => .demuxSelOut1 i
    | true => .demuxSelOut0 i
  | .mux4 =>
    let (a, v) := takeBus 4 v
    let (b, v) := takeBus 4 v
    let (s0, _) := takeBit v
    match s0 with
    | false => .mux4SelA a b
    | true => .mux4SelB a b
  | .mux8 =>
    let (a, v) := takeBus 8 v
    let (b, v) := takeBus 8 v
    let (s0, _) := takeBit v
    match s0 with
    | false => .mux8SelA a b
    | true => .mux8SelB a b
  | .mux16 =>
    let (a, v) := takeBus 16 v
    let (b, v) := takeBus 16 v
    let (s0, _) := takeBit v
    match s0 with
    | false => .mux16SelA a b
    | true => .mux16SelB a b
  | .mux4way16 =>
    let (a, v) := takeBus 16 v
    let (b, v) := takeBus 16 v
    let (c, v) := takeBus 16 v
    let (d, v) := takeBus 16 v
    let (s0, v) := takeBit v
    let (s1, _) := takeBit v
    match s0, s1 with
    | false, false => .mux4way16SelA a b c d
    | false, true => .mux4way16SelB a b c d
    | true, false => .mux4way16SelC a b c d
    | true, true => .mux4way16SelD a b c d
  | .mux8way16 =>
    let (a, v) := takeBus 16 v
    let (b, v) := takeBus 16 v
    let (c, v) := takeBus 16 v
    let (d, v) := takeBus 16 v
    let (e, v) := takeBus 16 v
    let (f, v) := takeBus 16 v
    let (g, v) := takeBus 16 v
    let (h, v) := takeBus 16 v
    let (s0, v) := takeBit v
    let (s1, v) := takeBit v
    let (s2, _) := takeBit v
    match s0, s1, s2 with
    | false, false, false => .mux8way16SelA a b c d e f g h
    | false, false, true => .mux8way16SelB a b c d e f g h
    | false, true, false => .mux8way16SelC a b c d e f g h
    | false, true, true => .mux8way16SelD a b c d e f g h
    | true, false, false => .mux8way16SelE a b c d e f g h
    | true, false, true => .mux8way16SelF a b c d e f g h
    | true, true, false => .mux8way16SelG a b c d e f g h
    | true, true, true => .mux8way16SelH a b c d e f g h
  | .demux4way =>
    let (i, v) := takeBit v
    let (s0, v) := takeBit v
    let (s1, _) := takeBit v
    match s0, s1 with
    | false, false => .demux4waySelV0 i
    | false, true => .demux4waySelV1 i
    | true, false => .demux4waySelV2 i
    | true, true => .demux4waySelV3 i
  | .demux8way =>
    let (i, v) := takeBit v
    let (s0, v) := takeBit v
    let (s1, v) := takeBit v
    let (s2, _) := takeBit v
    match s0, s1, s2 with
    | false, false, false => .demux8waySelV0 i
    | false, false, true => .demux8waySelV1 i
    | false, true, false => .demux8waySelV2 i
    | false, true, true => .demux8waySelV3 i
    | true, false, false => .demux8waySelV4 i
    | true, false, true => .demux8waySelV5 i
    | true, true, false => .demux8waySelV6 i
    | true, true, true => .demux8waySelV7 i

/-- The row a form and an input vector name. -/
def decodeForm (f : Form) (v : List Bit) : Instr :=
  match f with
  | .call c => decodeCell c v
  | .sel c => decodeSel c v
  | .aluctl =>
    let (x, v) := takeBus 16 v
    let (y, v) := takeBus 16 v
    let (zx, v) := takeBit v
    let (nx, v) := takeBit v
    let (zy, v) := takeBit v
    let (ny, v) := takeBit v
    let (f, v) := takeBit v
    let (no, _) := takeBit v
    controlRow zx nx zy ny f no x y

/-- Why a written vector is no evaluation. -/
inductive DecodeError where
  /-- the vector has not the length of the form's input vector (R14, R61: no truncation, no extension) -/
  | widthMismatch (form : Form) (got : Nat)
deriving DecidableEq, Repr

/-- The instruction of a request.  There is no request without one: every value of every input is legal (R60). -/
def Request.instr (r : Request) : Instr := decodeForm r.form (bitsOf r.bits)

/-- The vector of a request, as a list. -/
def Request.vector (r : Request) : InputVector := ⟨r.form, bitsOf r.bits⟩

/-- Build a request from a written vector.  A vector of the wrong length is refused here, by name, and never becomes a request
(R14, R61, R275; notes/assumptions/11.md). -/
def InputVector.build (v : InputVector) : Except DecodeError Request :=
  if v.wf then .ok ⟨v.form, ofBits v.form.width v.bits⟩ else .error (.widthMismatch v.form v.bits.length)

/-- The decoder, total on every form and every list of Bits: the instruction of the request the vector builds.  It rejects a
vector of the wrong length by name, and nothing else. -/
def decode (v : InputVector) : Except DecodeError Instr :=
  match v.build with
  | .ok r => .ok r.instr
  | .error e => .error e

/-! ## Encoding -/

/-- The vector of a control word row: `x`, `y`, then the six digits of the word as the table writes them (R54, R59). -/
def encodeControl (ctl : BitVec 6) (x y : Bus 16) : InputVector := ⟨.aluctl, bitsOf x ++ bitsOf y ++ bitsOf ctl⟩

/-- The encoder: the form and the input vector of an instruction, from the table's `encoding` of each row. -/
def encode : Instr → InputVector
  | .aluAnd x y => encodeControl 0b000000#6 x y
  | .aluW000001 x y => encodeControl 0b000001#6 x y
  | .aluAdd x y => encodeControl 0b000010#6 x y
  | .aluW000011 x y => encodeControl 0b000011#6 x y
  | .aluW000100 x y => encodeControl 0b000100#6 x y
  | .aluW000101 x y => encodeControl 0b000101#6 x y
  | .aluW000110 x y => encodeControl 0b000110#6 x y
  | .aluSubYX x y => encodeControl 0b000111#6 x y
  | .aluW001000 x y => encodeControl 0b001000#6 x y
  | .aluW001001 x y => encodeControl 0b001001#6 x y
  | .aluW001010 x y => encodeControl 0b001010#6 x y
  | .aluW001011 x y => encodeControl 0b001011#6 x y
  | .aluX x y => encodeControl 0b001100#6 x y
  | .aluNotX x y => encodeControl 0b001101#6 x y
  | .aluDecX x y => encodeControl 0b001110#6 x y
  | .aluNegX x y => encodeControl 0b001111#6 x y
  | .aluW010000 x y => encodeControl 0b010000#6 x y
  | .aluW010001 x y => encodeControl 0b010001#6 x y
  | .aluW010010 x y => encodeControl 0b010010#6 x y
  | .aluSubXY x y => encodeControl 0b010011#6 x y
  | .aluW010100 x y => encodeControl 0b010100#6 x y
  | .aluOr x y => encodeControl 0b010101#6 x y
  | .aluW010110 x y => encodeControl 0b010110#6 x y
  | .aluW010111 x y => encodeControl 0b010111#6 x y
  | .aluW011000 x y => encodeControl 0b011000#6 x y
  | .aluW011001 x y => encodeControl 0b011001#6 x y
  | .aluW011010 x y => encodeControl 0b011010#6 x y
  | .aluW011011 x y => encodeControl 0b011011#6 x y
  | .aluW011100 x y => encodeControl 0b011100#6 x y
  | .aluW011101 x y => encodeControl 0b011101#6 x y
  | .aluW011110 x y => encodeControl 0b011110#6 x y
  | .aluIncX x y => encodeControl 0b011111#6 x y
  | .aluW100000 x y => encodeControl 0b100000#6 x y
  | .aluW100001 x y => encodeControl 0b100001#6 x y
  | .aluW100010 x y => encodeControl 0b100010#6 x y
  | .aluW100011 x y => encodeControl 0b100011#6 x y
  | .aluW100100 x y => encodeControl 0b100100#6 x y
  | .aluW100101 x y => encodeControl 0b100101#6 x y
  | .aluW100110 x y => encodeControl 0b100110#6 x y
  | .aluW100111 x y => encodeControl 0b100111#6 x y
  | .aluW101000 x y => encodeControl 0b101000#6 x y
  | .aluW101001 x y => encodeControl 0b101001#6 x y
  | .aluZero x y => encodeControl 0b101010#6 x y
  | .aluW101011 x y => encodeControl 0b101011#6 x y
  | .aluW101100 x y => encodeControl 0b101100#6 x y
  | .aluW101101 x y => encodeControl 0b101101#6 x y
  | .aluW101110 x y => encodeControl 0b101110#6 x y
  | .aluW101111 x y => encodeControl 0b101111#6 x y
  | .aluY x y => encodeControl 0b110000#6 x y
  | .aluNotY x y => encodeControl 0b110001#6 x y
  | .aluDecY x y => encodeControl 0b110010#6 x y
  | .aluNegY x y => encodeControl 0b110011#6 x y
  | .aluW110100 x y => encodeControl 0b110100#6 x y
  | .aluW110101 x y => encodeControl 0b110101#6 x y
  | .aluW110110 x y => encodeControl 0b110110#6 x y
  | .aluIncY x y => encodeControl 0b110111#6 x y
  | .aluW111000 x y => encodeControl 0b111000#6 x y
  | .aluW111001 x y => encodeControl 0b111001#6 x y
  | .aluNeg1 x y => encodeControl 0b111010#6 x y
  | .aluW111011 x y => encodeControl 0b111011#6 x y
  | .aluW111100 x y => encodeControl 0b111100#6 x y
  | .aluW111101 x y => encodeControl 0b111101#6 x y
  | .aluW111110 x y => encodeControl 0b111110#6 x y
  | .aluOne x y => encodeControl 0b111111#6 x y
  | .muxSelA a b => ⟨.sel .muxBit, [a, b, false]⟩
  | .muxSelB a b => ⟨.sel .muxBit, [a, b, true]⟩
  | .demuxSelOut1 i => ⟨.sel .demuxBit, [i, false]⟩
  | .demuxSelOut0 i => ⟨.sel .demuxBit, [i, true]⟩
  | .mux4SelA a b => ⟨.sel .mux4, bitsOf a ++ bitsOf b ++ [false]⟩
  | .mux4SelB a b => ⟨.sel .mux4, bitsOf a ++ bitsOf b ++ [true]⟩
  | .mux8SelA a b => ⟨.sel .mux8, bitsOf a ++ bitsOf b ++ [false]⟩
  | .mux8SelB a b => ⟨.sel .mux8, bitsOf a ++ bitsOf b ++ [true]⟩
  | .mux16SelA a b => ⟨.sel .mux16, bitsOf a ++ bitsOf b ++ [false]⟩
  | .mux16SelB a b => ⟨.sel .mux16, bitsOf a ++ bitsOf b ++ [true]⟩
  | .mux4way16SelA a b c d => ⟨.sel .mux4way16, bitsOf a ++ bitsOf b ++ bitsOf c ++ bitsOf d ++ [false, false]⟩
  | .mux4way16SelB a b c d => ⟨.sel .mux4way16, bitsOf a ++ bitsOf b ++ bitsOf c ++ bitsOf d ++ [false, true]⟩
  | .mux4way16SelC a b c d => ⟨.sel .mux4way16, bitsOf a ++ bitsOf b ++ bitsOf c ++ bitsOf d ++ [true, false]⟩
  | .mux4way16SelD a b c d => ⟨.sel .mux4way16, bitsOf a ++ bitsOf b ++ bitsOf c ++ bitsOf d ++ [true, true]⟩
  | .mux8way16SelA a b c d e f g h => ⟨.sel .mux8way16, bitsOf a ++ bitsOf b ++ bitsOf c ++ bitsOf d ++ bitsOf e ++ bitsOf f ++ bitsOf g ++ bitsOf h ++ [false, false, false]⟩
  | .mux8way16SelB a b c d e f g h => ⟨.sel .mux8way16, bitsOf a ++ bitsOf b ++ bitsOf c ++ bitsOf d ++ bitsOf e ++ bitsOf f ++ bitsOf g ++ bitsOf h ++ [false, false, true]⟩
  | .mux8way16SelC a b c d e f g h => ⟨.sel .mux8way16, bitsOf a ++ bitsOf b ++ bitsOf c ++ bitsOf d ++ bitsOf e ++ bitsOf f ++ bitsOf g ++ bitsOf h ++ [false, true, false]⟩
  | .mux8way16SelD a b c d e f g h => ⟨.sel .mux8way16, bitsOf a ++ bitsOf b ++ bitsOf c ++ bitsOf d ++ bitsOf e ++ bitsOf f ++ bitsOf g ++ bitsOf h ++ [false, true, true]⟩
  | .mux8way16SelE a b c d e f g h => ⟨.sel .mux8way16, bitsOf a ++ bitsOf b ++ bitsOf c ++ bitsOf d ++ bitsOf e ++ bitsOf f ++ bitsOf g ++ bitsOf h ++ [true, false, false]⟩
  | .mux8way16SelF a b c d e f g h => ⟨.sel .mux8way16, bitsOf a ++ bitsOf b ++ bitsOf c ++ bitsOf d ++ bitsOf e ++ bitsOf f ++ bitsOf g ++ bitsOf h ++ [true, false, true]⟩
  | .mux8way16SelG a b c d e f g h => ⟨.sel .mux8way16, bitsOf a ++ bitsOf b ++ bitsOf c ++ bitsOf d ++ bitsOf e ++ bitsOf f ++ bitsOf g ++ bitsOf h ++ [true, true, false]⟩
  | .mux8way16SelH a b c d e f g h => ⟨.sel .mux8way16, bitsOf a ++ bitsOf b ++ bitsOf c ++ bitsOf d ++ bitsOf e ++ bitsOf f ++ bitsOf g ++ bitsOf h ++ [true, true, true]⟩
  | .demux4waySelV0 i => ⟨.sel .demux4way, [i, false, false]⟩
  | .demux4waySelV1 i => ⟨.sel .demux4way, [i, false, true]⟩
  | .demux4waySelV2 i => ⟨.sel .demux4way, [i, true, false]⟩
  | .demux4waySelV3 i => ⟨.sel .demux4way, [i, true, true]⟩
  | .demux8waySelV0 i => ⟨.sel .demux8way, [i, false, false, false]⟩
  | .demux8waySelV1 i => ⟨.sel .demux8way, [i, false, false, true]⟩
  | .demux8waySelV2 i => ⟨.sel .demux8way, [i, false, true, false]⟩
  | .demux8waySelV3 i => ⟨.sel .demux8way, [i, false, true, true]⟩
  | .demux8waySelV4 i => ⟨.sel .demux8way, [i, true, false, false]⟩
  | .demux8waySelV5 i => ⟨.sel .demux8way, [i, true, false, true]⟩
  | .demux8waySelV6 i => ⟨.sel .demux8way, [i, true, true, false]⟩
  | .demux8waySelV7 i => ⟨.sel .demux8way, [i, true, true, true]⟩
  | .nandGate a b => ⟨.call .nandGate, [a, b]⟩
  | .notGate a => ⟨.call .notGate, [a]⟩
  | .andGate a b => ⟨.call .andGate, [a, b]⟩
  | .orGate a b => ⟨.call .orGate, [a, b]⟩
  | .xorGate a b => ⟨.call .xorGate, [a, b]⟩
  | .muxBit a b sel => ⟨.call .muxBit, [a, b, sel]⟩
  | .demuxBit i sel => ⟨.call .demuxBit, [i, sel]⟩
  | .not4 a => ⟨.call .not4, bitsOf a⟩
  | .not8 a => ⟨.call .not8, bitsOf a⟩
  | .not16 a => ⟨.call .not16, bitsOf a⟩
  | .and4 a b => ⟨.call .and4, bitsOf a ++ bitsOf b⟩
  | .and8 a b => ⟨.call .and8, bitsOf a ++ bitsOf b⟩
  | .and16 a b => ⟨.call .and16, bitsOf a ++ bitsOf b⟩
  | .or4 a b => ⟨.call .or4, bitsOf a ++ bitsOf b⟩
  | .or8 a b => ⟨.call .or8, bitsOf a ++ bitsOf b⟩
  | .or16 a b => ⟨.call .or16, bitsOf a ++ bitsOf b⟩
  | .xor4 a b => ⟨.call .xor4, bitsOf a ++ bitsOf b⟩
  | .xor8 a b => ⟨.call .xor8, bitsOf a ++ bitsOf b⟩
  | .xor16 a b => ⟨.call .xor16, bitsOf a ++ bitsOf b⟩
  | .mux4 a b sel => ⟨.call .mux4, bitsOf a ++ bitsOf b ++ [sel]⟩
  | .mux8 a b sel => ⟨.call .mux8, bitsOf a ++ bitsOf b ++ [sel]⟩
  | .mux16 a b sel => ⟨.call .mux16, bitsOf a ++ bitsOf b ++ [sel]⟩
  | .or8way a => ⟨.call .or8way, bitsOf a⟩
  | .and8way a => ⟨.call .and8way, bitsOf a⟩
  | .mux4way16 a b c d sel => ⟨.call .mux4way16, bitsOf a ++ bitsOf b ++ bitsOf c ++ bitsOf d ++ bitsOf sel⟩
  | .mux8way16 a b c d e f g h sel => ⟨.call .mux8way16, bitsOf a ++ bitsOf b ++ bitsOf c ++ bitsOf d ++ bitsOf e ++ bitsOf f ++ bitsOf g ++ bitsOf h ++ bitsOf sel⟩
  | .demux4way i sel => ⟨.call .demux4way, [i] ++ bitsOf sel⟩
  | .demux8way i sel => ⟨.call .demux8way, [i] ++ bitsOf sel⟩
  | .or16way a => ⟨.call .or16way, bitsOf a⟩
  | .halfAdder a b => ⟨.call .halfAdder, [a, b]⟩
  | .fullAdder a b c => ⟨.call .fullAdder, [a, b, c]⟩
  | .adder4 a b => ⟨.call .adder4, bitsOf a ++ bitsOf b⟩
  | .adder8 a b => ⟨.call .adder8, bitsOf a ++ bitsOf b⟩
  | .adder16 a b => ⟨.call .adder16, bitsOf a ++ bitsOf b⟩
  | .incrementer4 a => ⟨.call .incrementer4, bitsOf a⟩
  | .incrementer8 a => ⟨.call .incrementer8, bitsOf a⟩
  | .incrementer16 a => ⟨.call .incrementer16, bitsOf a⟩
  | .alu x y zx nx zy ny f no => ⟨.call .alu, bitsOf x ++ bitsOf y ++ [zx, nx, zy, ny, f, no]⟩

/-- The request that presents an instruction: its encoding, at the length of its form's input vector. -/
def Instr.request (i : Instr) : Request := ⟨(encode i).form, ofBits (encode i).form.width (encode i).bits⟩

/-! ## Calls -/

/-- The instruction a call stands for: refused when the check refuses it, and otherwise the call's arguments side by side,
decoded as the cell's input vector (R63, R65). -/
def Call.toInstr (k : Call) : Except BuildError Instr :=
  match k.check with
  | .ok () => .ok (decodeCell k.cell (k.args.flatMap Signal.bits))
  | .error e => .error e

/-! ## The opcode table's words -/

/-- The form a bare word of the opcode table is read as, by its length in whole bytes.  The only words the hardware decodes
are the control words of `alu` (R54, R59), and a selector or cell row's bits say nothing about which cell they belong to
(R65), so a word of one byte is read as a control word.  Only CELL rows are longer: the length names the cell where one row
alone has it (24, 72, 136), and the last row of the table where several have (16, 32, 40).  DESIGN CHOICE (notes/assumptions/4.md).
EVERY OTHER LENGTH, which no row of the table has (0, 7, 12, 48, 56, 64, … bits), is read as a control word too: the spec says
nothing of such a word, and this is the model's choice as well (DESIGN CHOICE, the same entry). -/
def tableForm : Nat → Form
  | 16 => .call .incrementer16
  | 24 => .call .mux8
  | 32 => .call .adder16
  | 40 => .call .alu
  | 72 => .call .mux4way16
  | 136 => .call .mux8way16
  | _ => .aluctl

/-- A bare word of the opcode table, as a request: bit 0 of the word is the LAST Bit of the vector, and the Bits above those of
the word are 0.  DESIGN CHOICE (notes/assumptions/4.md): the row of a control word gives its byte six digits and mask 0x3F,
and bits 6 and 7 no meaning; here they are the next Bits of the `alu` vector, `y[15]` and `y[14]`, so that no bit of a word is
dropped.  A word of a length no row of the table has is laid out in the same way in the 38 Bits of the `alu` vector: the Bits
it does not reach are 0, and its bits above the control word are `y` and then `x` (DESIGN CHOICE, the same entry).  A word of
any length with a 1 beyond its vector is no request (DESIGN CHOICE, the same entry). -/
def tableRequest (nbits w : Nat) : Option Request :=
  if w % 2 ^ nbits < 2 ^ (tableForm nbits).width then some ⟨tableForm nbits, BitVec.ofNat _ (w % 2 ^ nbits)⟩ else none

/-- The instruction the decoder reads from an instruction whose bits are `w`, numbered as spec/opcode_table.json numbers
them; bits above `nbits` are 0. -/
def decodeTableWord (nbits w : Nat) : Option Instr := (tableRequest nbits w).map Request.instr

end Sys2Proof
end

