-- ==== Sys2Proof/Machine/State.lean ====
section
/-! DEFINITION. The state, the outputs, and the reasons a step can stop.  The hardware holds NO state ("A model's machine
state is therefore the unit type", spec/10_state.md R20): no register, program counter, flag, memory or mode (R21 to R27).
What State holds is the host's side of the boundary (spec/70_reset_and_hazards.md R297): the parameter the spec leaves to
the model, the evaluations the host has presented, and the outputs it reads. -/

namespace Sys2Proof.Machine

/-- The values on the output ports of one evaluation, one constructor per shape of table T29 (spec/10_state.md R29). -/
inductive Outputs where
  /-- one unnamed Bit, port `out` -/
  | bit (out : Bit)
  /-- the bundle of `demux`: `out[0]`, `out[1]` (spec/30_encoding.md R53) -/
  | pair (out0 out1 : Bit)
  /-- `carry` (element 0) and `sum` (element 1) of the half and the full adder -/
  | adder (carry sum : Bit)
  /-- a bus of four, port `out` -/
  | bus4 (out : Bus 4)
  /-- a bus of eight, port `out` -/
  | bus8 (out : Bus 8)
  /-- a bus of sixteen, port `out` -/
  | bus16 (out : Bus 16)
  /-- the ports `out`, `zero`, `negative` of `alu` (R23: output ports, not stored flags) -/
  | alu (out : Bus 16) (zero negative : Bit)
deriving DecidableEq, Repr

/-- The outputs as signals, in port order. -/
def Outputs.signals : Outputs → List Signal
  | .bit b => [.bit b]
  | .pair b0 b1 => [.pair b0 b1]
  | .adder c s => [.bit c, .bit s]
  | .bus4 b => [.bus .w4 b]
  | .bus8 b => [.bus .w8 b]
  | .bus16 b => [.bus .w16 b]
  | .alu b z n => [.bus .w16 b, .bit z, .bit n]

/-- The machine with its host: plain data. -/
structure State where
  /-- the parameter `WIDE_DEMUX_ORDER` (spec/00_scope.md R7); no step writes it -/
  wideDemuxOrder : WideDemuxOrder
  /-- the evaluations the host has presented and that have not been made, the next one first (R297, R298) -/
  requests : List Request
  /-- the output ports at the end of the last evaluation; none before the first (R30) -/
  outputs : Option Outputs
deriving DecidableEq, Repr

/-- Faults: THERE ARE NONE.  "There is no fault outcome, no stuck outcome" (spec/60_exceptions.md R278, R270): the type has
no constructor, so no meaning and no step can answer one.  Safe: nothing is stopped that the hardware would run. -/
inductive Fault where
deriving DecidableEq, Repr

/-- Why the model gives a request no meaning.  No step refuses: "no refusal at run time" (spec/60_exceptions.md R278); a width
mismatch is refused when the term is built (R275; WellFormed.lean, Decode.lean). -/
inductive Refusal where
  /-- raised by exec's arm of an instruction that has no meaning in the model, of which there is none; safe (the machine only
  stops) -/
  | notModelled (mnemonic : String)
deriving DecidableEq, Repr

/-- The machine before its first evaluation.  There is no reset (spec/70_reset_and_hazards.md R290): the parameter at the
spec's default, nothing presented (R291), no output value yet (spec/10_state.md R30). -/
def State.reset : State := ⟨Config.defaultOrder, [], none⟩

end Sys2Proof.Machine
end

