-- ==== Sys2Proof/Machine/Operands.lean ====
section
/-! DEFINITION. Operands.  Every operand is the whole value of an input port (spec/30_encoding.md R58): there is no
register, immediate, address or extension.  What remains is the Bits of a bundle, the selection of a multiplexer, and
the bus whose Bits a rule gives one by one. -/

namespace Sys2Proof.Machine

/-- `b[i]`: the Bit at index `i`, index 0 the most significant (spec/00_scope.md R10). -/
def bitAt {n : Nat} (b : BitVec n) (i : Nat) : Bit := b.getMsbD i

/-- The bus whose index `i` holds `g i` (the reading of a rule of the form "for i in 0..n-1: `out[i] <- …`"). -/
def busOfBits : (n : Nat) → (Nat → Bit) → Bus n
  | 0, _ => 0#0
  | n + 1, g => BitVec.cons (g 0) (busOfBits n fun i => g (i + 1))

/-- `if s then b else a`: selector 0 selects the first operand, 1 the second (spec/30_encoding.md R56). -/
def select {α : Type} (sel : Bit) (a b : α) : α := if sel then b else a

/-- At least one Bit of the bundle is 1. -/
def anyBit {n : Nat} (a : BitVec n) : Bit := (List.range n).any fun i => bitAt a i

/-- Every Bit of the bundle is 1. -/
def allBits {n : Nat} (a : BitVec n) : Bit := (List.range n).all fun i => bitAt a i

end Sys2Proof.Machine
end

