-- ==== Sys2Proof/Machine/Ops.lean ====
section
/-! DEFINITION. The shared operations.  Each meaning computes the values of its cell's output ports and hands them to
`drive`, the one place where an evaluation has its effect.  There is no operation over memory or registers, and no
taking of or return from an exception: the hardware has none of them (spec/20_memory.md R40; spec/10_state.md R21;
spec/60_exceptions.md R270, R273, R274). -/

namespace Sys2Proof.Machine

/-- The answer of a step of this machine. -/
abbrev Answer := Host.Outcome State Fault Refusal

/-- The state with these values on the output ports. -/
def State.withOutputs (s : State) (o : Outputs) : State := { s with outputs := some o }

/-- The state with these requests pending. -/
def State.withRequests (s : State) (rs : List Request) : State := { s with requests := rs }

/-- The whole effect of an evaluation: its output ports have their values, and nothing else changes ("side-effect-free",
spec/00_scope.md R8; spec/20_memory.md R43). -/
def drive (o : Outputs) (s : State) : Answer := .next (s.withOutputs o)

/-- The next evaluation the host has presented, and the state without it; none when nothing is presented. -/
def fetch (s : State) : Option (Request × State) :=
  match s.requests with
  | [] => none
  | r :: rs => some (r, s.withRequests rs)

end Sys2Proof.Machine
end

