-- ==== Sys2Proof/Machine/Primitive.lean ====
section
/-! DEFINITION. The primitive cell `nand` (spec/40_nand_primitive.md). -/

namespace Sys2Proof.Machine

/-- R70: `out <- ¬(a ∧ b)`. -/
def nandOf (a b : Bit) : Bit := !(a && b)

/-- `nand` (R70). -/
def execNandGate (a b : Bit) (s : State) : Answer := drive (.bit (nandOf a b)) s

end Sys2Proof.Machine
end

