-- ==== Sys2Proof/Machine/ScalarGates.lean ====
section
/-! DEFINITION. The scalar gate library (spec/41_scalar_gates.md), by the truth functions of its rules; the structures
are in Machine/Structure.lean. -/

namespace Sys2Proof.Machine

/-- R80: `out <- ¬a`. -/
def notOf (a : Bit) : Bit := !a

/-- R81: `out <- a ∧ b`. -/
def andOf (a b : Bit) : Bit := a && b

/-- R82: `out <- a ∨ b`. -/
def orOf (a b : Bit) : Bit := a || b

/-- R83: `out <- a ⊕ b`. -/
def xorOf (a b : Bit) : Bit := a ^^ b

/-- R84: `out <- if s then b else a`. -/
def muxOf (a b sel : Bit) : Bit := select sel a b

/-- R85: `out[0] <- i ∧ s`, `out[1] <- i ∧ ¬s`: selector 0 drives index 1. -/
def demuxOf (i sel : Bit) : Bit × Bit := (i && sel, i && !sel)

/-- `not` (R80). -/
def execNotGate (a : Bit) (s : State) : Answer := drive (.bit (notOf a)) s

/-- `and` (R81). -/
def execAndGate (a b : Bit) (s : State) : Answer := drive (.bit (andOf a b)) s

/-- `or` (R82). -/
def execOrGate (a b : Bit) (s : State) : Answer := drive (.bit (orOf a b)) s

/-- `xor` (R83). -/
def execXorGate (a b : Bit) (s : State) : Answer := drive (.bit (xorOf a b)) s

/-- `mux` (R84). -/
def execMuxBit (a b sel : Bit) (s : State) : Answer := drive (.bit (muxOf a b sel)) s

/-- `demux` (R85). -/
def execDemuxBit (i sel : Bit) (s : State) : Answer := drive (.pair (demuxOf i sel).1 (demuxOf i sel).2) s

end Sys2Proof.Machine
end

