-- ==== Sys2Proof/Machine/Arithmetic.lean ====
section
/-! DEFINITION. The arithmetic library (spec/44_arithmetic.md): half and full adder, the adders and the incrementers.
Addition wraps modulo `2^N`; no carry-out and no overflow exists on any port (R136). -/

namespace Sys2Proof.Machine

/-- R130: `[carry, sum]` with `carry = and(a,b)`, `sum = xor(a,b)`. -/
def halfAdderOf (a b : Bit) : Bit × Bit := (andOf a b, xorOf a b)

/-- R131: `sum <- a ⊕ b ⊕ c`, `carry <- (a ∧ b) ∨ (a ∧ c) ∨ (b ∧ c)`, as `(carry, sum)`. -/
def fullAdderOf (a b c : Bit) : Bit × Bit := (a && b || a && c || b && c, a ^^ b ^^ c)

/-- R132: `val(out) = (val(a) + val(b)) mod 2^N`, which is what BitVec's addition is. -/
def adderOf {n : Nat} (a b : Bus n) : Bus n := a + b

/-- R137: `incrementerN(a) = adderN(a, ONE_N)`. -/
def incrementerOf {n : Nat} (a : Bus n) : Bus n := adderOf a (Config.oneBus n)

/-- `half_adder` (R130). -/
def execHalfAdder (a b : Bit) (s : State) : Answer := drive (.adder (halfAdderOf a b).1 (halfAdderOf a b).2) s

/-- `full_adder` (R131). -/
def execFullAdder (a b c : Bit) (s : State) : Answer := drive (.adder (fullAdderOf a b c).1 (fullAdderOf a b c).2) s

/-- `adder4` (R133). -/
def execAdder4 (a b : Bus 4) (s : State) : Answer := drive (.bus4 (adderOf a b)) s

/-- `adder8` (R134). -/
def execAdder8 (a b : Bus 8) (s : State) : Answer := drive (.bus8 (adderOf a b)) s

/-- `adder16` (R135). -/
def execAdder16 (a b : Bus 16) (s : State) : Answer := drive (.bus16 (adderOf a b)) s

/-- `incrementer4` (R138). -/
def execIncrementer4 (a : Bus 4) (s : State) : Answer := drive (.bus4 (incrementerOf a)) s

/-- `incrementer8` (R139). -/
def execIncrementer8 (a : Bus 8) (s : State) : Answer := drive (.bus8 (incrementerOf a)) s

/-- `incrementer16` (R140). -/
def execIncrementer16 (a : Bus 16) (s : State) : Answer := drive (.bus16 (incrementerOf a)) s

end Sys2Proof.Machine
end

