-- ==== Sys2Proof/Machine/BusGates.lean ====
section
/-! DEFINITION. The bus gate library (spec/42_bus_gates.md): NOT, AND, OR, XOR, MUX at the widths 4, 8, 16.  Each is the
scalar gate at every index, index-preserving (R90); BitVec's bitwise operations are exactly that. -/

namespace Sys2Proof.Machine

/-- `notN` (R90): the scalar `not` at every index. -/
def notBusOf {n : Nat} (a : Bus n) : Bus n := ~~~a

/-- `andN` (R90): the scalar `and` at every index. -/
def andBusOf {n : Nat} (a b : Bus n) : Bus n := a &&& b

/-- `orN` (R90): the scalar `or` at every index. -/
def orBusOf {n : Nat} (a b : Bus n) : Bus n := a ||| b

/-- `xorN` (R90): the scalar `xor` at every index. -/
def xorBusOf {n : Nat} (a b : Bus n) : Bus n := a ^^^ b

/-- `muxN` (R90, R103 to R105): one selector Bit, the whole bus. -/
def muxBusOf {n : Nat} (a b : Bus n) (sel : Bit) : Bus n := select sel a b

/-- `not4` (R91). -/
def execNot4 (a : Bus 4) (s : State) : Answer := drive (.bus4 (notBusOf a)) s

/-- `not8` (R92). -/
def execNot8 (a : Bus 8) (s : State) : Answer := drive (.bus8 (notBusOf a)) s

/-- `not16` (R93). -/
def execNot16 (a : Bus 16) (s : State) : Answer := drive (.bus16 (notBusOf a)) s

/-- `and4` (R94). -/
def execAnd4 (a b : Bus 4) (s : State) : Answer := drive (.bus4 (andBusOf a b)) s

/-- `and8` (R95). -/
def execAnd8 (a b : Bus 8) (s : State) : Answer := drive (.bus8 (andBusOf a b)) s

/-- `and16` (R96). -/
def execAnd16 (a b : Bus 16) (s : State) : Answer := drive (.bus16 (andBusOf a b)) s

/-- `or4` (R97). -/
def execOr4 (a b : Bus 4) (s : State) : Answer := drive (.bus4 (orBusOf a b)) s

/-- `or8` (R98). -/
def execOr8 (a b : Bus 8) (s : State) : Answer := drive (.bus8 (orBusOf a b)) s

/-- `or16` (R99). -/
def execOr16 (a b : Bus 16) (s : State) : Answer := drive (.bus16 (orBusOf a b)) s

/-- `xor4` (R100). -/
def execXor4 (a b : Bus 4) (s : State) : Answer := drive (.bus4 (xorBusOf a b)) s

/-- `xor8` (R101). -/
def execXor8 (a b : Bus 8) (s : State) : Answer := drive (.bus8 (xorBusOf a b)) s

/-- `xor16` (R102). -/
def execXor16 (a b : Bus 16) (s : State) : Answer := drive (.bus16 (xorBusOf a b)) s

/-- `mux4` (R103). -/
def execMux4 (a b : Bus 4) (sel : Bit) (s : State) : Answer := drive (.bus4 (muxBusOf a b sel)) s

/-- `mux8` (R104). -/
def execMux8 (a b : Bus 8) (sel : Bit) (s : State) : Answer := drive (.bus8 (muxBusOf a b sel)) s

/-- `mux16` (R105). -/
def execMux16 (a b : Bus 16) (sel : Bit) (s : State) : Answer := drive (.bus16 (muxBusOf a b sel)) s

end Sys2Proof.Machine
end

