-- ==== Sys2Proof/Machine/WideSelectors.lean ====
section
/-! DEFINITION. The wide selector library (spec/43_wide_selectors.md): reductions, multi-way multiplexers and multi-way
demultiplexers, by their truth functions. -/

namespace Sys2Proof.Machine

/-- R110: the OR of the eight Bits. -/
def or8wayOf (a : Bus 8) : Bit := anyBit a

/-- R111: the AND of the eight Bits. -/
def and8wayOf (a : Bus 8) : Bit := allBits a

/-- R116: the OR of the sixteen Bits. -/
def or16wayOf (a : Bus 16) : Bit := anyBit a

/-- R112: `00→a, 01→b, 10→c, 11→d`, index 0 of the selector the higher-order Bit. -/
def mux4way16Of (a b c d : Bus 16) (sel : Selector 2) : Bus 16 :=
  match bitAt sel 0, bitAt sel 1 with
  | false, false => a
  | false, true => b
  | true, false => c
  | true, true => d

/-- R113: `000→a … 111→h`: the input whose position counted from 0 is `val(s)`. -/
def mux8way16Of (a b c d e f g h : Bus 16) (sel : Selector 3) : Bus 16 :=
  match bitAt sel 0, bitAt sel 1, bitAt sel 2 with
  | false, false, false => a
  | false, false, true => b
  | false, true, false => c
  | false, true, true => d
  | true, false, false => e
  | true, false, true => f
  | true, true, false => g
  | true, true, true => h

/-- The output index that selector value `v` drives, of `n` outputs (R57, D5). -/
def drivenIndex (order : WideDemuxOrder) (n v : Nat) : Nat :=
  match order with
  | .significance => n - 1 - v
  | .index => v

/-- R114: `out[j] <- i ∧ (j is the index that val(s) drives)`, for j in 0..3. -/
def demux4wayOf (order : WideDemuxOrder) (i : Bit) (sel : Selector 2) : Bus 4 :=
  busOfBits 4 fun j => i && j == drivenIndex order 4 (val sel)

/-- R115: the same over eight outputs. -/
def demux8wayOf (order : WideDemuxOrder) (i : Bit) (sel : Selector 3) : Bus 8 :=
  busOfBits 8 fun j => i && j == drivenIndex order 8 (val sel)

/-- `or8way` (R110). -/
def execOr8way (a : Bus 8) (s : State) : Answer := drive (.bit (or8wayOf a)) s

/-- `and8way` (R111). -/
def execAnd8way (a : Bus 8) (s : State) : Answer := drive (.bit (and8wayOf a)) s

/-- `or16way` (R116). -/
def execOr16way (a : Bus 16) (s : State) : Answer := drive (.bit (or16wayOf a)) s

/-- `mux4way16` (R112). -/
def execMux4way16 (a b c d : Bus 16) (sel : Selector 2) (s : State) : Answer := drive (.bus16 (mux4way16Of a b c d sel)) s

/-- `mux8way16` (R113). -/
def execMux8way16 (a b c d e f g h : Bus 16) (sel : Selector 3) (s : State) : Answer :=
  drive (.bus16 (mux8way16Of a b c d e f g h sel)) s

/-- `demux4way` (R114), with the parameter the state carries. -/
def execDemux4way (i : Bit) (sel : Selector 2) (s : State) : Answer := drive (.bus4 (demux4wayOf s.wideDemuxOrder i sel)) s

/-- `demux8way` (R115), with the parameter the state carries. -/
def execDemux8way (i : Bit) (sel : Selector 3) (s : State) : Answer := drive (.bus8 (demux8wayOf s.wideDemuxOrder i sel)) s

end Sys2Proof.Machine
end

