-- ==== Sys2Proof/Machine/Flags.lean ====
section
/-! DEFINITION. The two status outputs of the ALU (spec/45_alu.md R155, R156).  They are output ports, computed from the
final result of the same evaluation; there is no stored flag, no carry and no overflow (R160; spec/10_state.md R23). -/

namespace Sys2Proof.Machine

/-- R155: `zero <- not(or16way(out))`. -/
def zeroOf (out : Bus 16) : Bit := notOf (or16wayOf out)

/-- R156: `negative <- out[0]`. -/
def negativeOf (out : Bus 16) : Bit := bitAt out 0

/-- The three output ports of `alu`, from its result bus. -/
def aluOutputs (out : Bus 16) : Outputs := .alu out (zeroOf out) (negativeOf out)

end Sys2Proof.Machine
end

