-- ==== Sys2Proof/Machine/Alu.lean ====
section
/-! DEFINITION. The cell `alu` (spec/45_alu.md), by the truth functions of its steps.  "Negate" in steps 1, 2 and 4 is the
bitwise complement. -/

namespace Sys2Proof.Machine

/-- Steps 1 and 2 (R151, R152): zero the operand if `z`, THEN complement it if `n`. -/
def preconditionOf (v : Bus 16) (z n : Bit) : Bus 16 :=
  let v1 := if z then Config.zeroBus 16 else v
  if n then notBusOf v1 else v1

/-- Step 3 (R153, with the argument order corrected by spec/90_conflicts.md C1): add if `f`, AND if not. -/
def candidateOf (x2 y2 : Bus 16) (f : Bit) : Bus 16 := if f then adderOf x2 y2 else andBusOf x2 y2

/-- Steps 1 to 4 (R157): the result bus `out`. -/
def aluOf (x y : Bus 16) (zx nx zy ny f no : Bit) : Bus 16 :=
  let cand := candidateOf (preconditionOf x zx nx) (preconditionOf y zy ny) f
  if no then notBusOf cand else cand

/-- `alu` (R157): the result and its two status outputs. -/
def execAlu (x y : Bus 16) (zx nx zy ny f no : Bit) (s : State) : Answer :=
  drive (aluOutputs (aluOf x y zx nx zy ny f no)) s

/-- The `alu` call with a control word: `ctl[0..5]` = `zx, nx, zy, ny, f, no` (spec/30_encoding.md R54, R64). -/
def aluControl (ctl : BitVec 6) (x y : Bus 16) (s : State) : Answer :=
  execAlu x y (bitAt ctl 0) (bitAt ctl 1) (bitAt ctl 2) (bitAt ctl 3) (bitAt ctl 4) (bitAt ctl 5) s

end Sys2Proof.Machine
end

