-- ==== Sys2Proof/Machine/AluControlWords.lean ====
section
/-! DEFINITION. The 46 control words outside the repertoire (spec/47_alu_control_words.md R200 to R245), all of them legal (R60): each is
the `alu` call with that word (spec/30_encoding.md R64).  The closed form in each docstring is the rule's; the statements
of Certificates/ say that the call computes it. -/

namespace Sys2Proof.Machine

/-- `ALU.W000001`: `out <- !(x&y)` (R200). -/
def execAluW000001 (x y : Bus 16) (s : State) : Answer := aluControl 0b000001#6 x y s

/-- `ALU.W000011`: `out <- -x-y-1` (R201). -/
def execAluW000011 (x y : Bus 16) (s : State) : Answer := aluControl 0b000011#6 x y s

/-- `ALU.W000100`: `out <- x&!y` (R202). -/
def execAluW000100 (x y : Bus 16) (s : State) : Answer := aluControl 0b000100#6 x y s

/-- `ALU.W000101`: `out <- !x|y` (R203). -/
def execAluW000101 (x y : Bus 16) (s : State) : Answer := aluControl 0b000101#6 x y s

/-- `ALU.W000110`: `out <- x-y-1` (R204). -/
def execAluW000110 (x y : Bus 16) (s : State) : Answer := aluControl 0b000110#6 x y s

/-- `ALU.W001000`: `out <- 0` (R205). -/
def execAluW001000 (x y : Bus 16) (s : State) : Answer := aluControl 0b001000#6 x y s

/-- `ALU.W001001`: `out <- -1` (R206). -/
def execAluW001001 (x y : Bus 16) (s : State) : Answer := aluControl 0b001001#6 x y s

/-- `ALU.W001010`: `out <- x` (R207). -/
def execAluW001010 (x y : Bus 16) (s : State) : Answer := aluControl 0b001010#6 x y s

/-- `ALU.W001011`: `out <- !x` (R208). -/
def execAluW001011 (x y : Bus 16) (s : State) : Answer := aluControl 0b001011#6 x y s

/-- `ALU.W010000`: `out <- !x&y` (R209). -/
def execAluW010000 (x y : Bus 16) (s : State) : Answer := aluControl 0b010000#6 x y s

/-- `ALU.W010001`: `out <- x|!y` (R210). -/
def execAluW010001 (x y : Bus 16) (s : State) : Answer := aluControl 0b010001#6 x y s

/-- `ALU.W010010`: `out <- y-x-1` (R211). -/
def execAluW010010 (x y : Bus 16) (s : State) : Answer := aluControl 0b010010#6 x y s

/-- `ALU.W010100`: `out <- !(x|y)` (R212). -/
def execAluW010100 (x y : Bus 16) (s : State) : Answer := aluControl 0b010100#6 x y s

/-- `ALU.W010110`: `out <- -x-y-2` (R213). -/
def execAluW010110 (x y : Bus 16) (s : State) : Answer := aluControl 0b010110#6 x y s

/-- `ALU.W010111`: `out <- x+y+1` (R214). -/
def execAluW010111 (x y : Bus 16) (s : State) : Answer := aluControl 0b010111#6 x y s

/-- `ALU.W011000`: `out <- 0` (R215). -/
def execAluW011000 (x y : Bus 16) (s : State) : Answer := aluControl 0b011000#6 x y s

/-- `ALU.W011001`: `out <- -1` (R216). -/
def execAluW011001 (x y : Bus 16) (s : State) : Answer := aluControl 0b011001#6 x y s

/-- `ALU.W011010`: `out <- !x` (R217). -/
def execAluW011010 (x y : Bus 16) (s : State) : Answer := aluControl 0b011010#6 x y s

/-- `ALU.W011011`: `out <- x` (R218). -/
def execAluW011011 (x y : Bus 16) (s : State) : Answer := aluControl 0b011011#6 x y s

/-- `ALU.W011100`: `out <- !x` (R219). -/
def execAluW011100 (x y : Bus 16) (s : State) : Answer := aluControl 0b011100#6 x y s

/-- `ALU.W011101`: `out <- x` (R220). -/
def execAluW011101 (x y : Bus 16) (s : State) : Answer := aluControl 0b011101#6 x y s

/-- `ALU.W011110`: `out <- -x-2` (R221). -/
def execAluW011110 (x y : Bus 16) (s : State) : Answer := aluControl 0b011110#6 x y s

/-- `ALU.W100000`: `out <- 0` (R222). -/
def execAluW100000 (x y : Bus 16) (s : State) : Answer := aluControl 0b100000#6 x y s

/-- `ALU.W100001`: `out <- -1` (R223). -/
def execAluW100001 (x y : Bus 16) (s : State) : Answer := aluControl 0b100001#6 x y s

/-- `ALU.W100010`: `out <- y` (R224). -/
def execAluW100010 (x y : Bus 16) (s : State) : Answer := aluControl 0b100010#6 x y s

/-- `ALU.W100011`: `out <- !y` (R225). -/
def execAluW100011 (x y : Bus 16) (s : State) : Answer := aluControl 0b100011#6 x y s

/-- `ALU.W100100`: `out <- 0` (R226). -/
def execAluW100100 (x y : Bus 16) (s : State) : Answer := aluControl 0b100100#6 x y s

/-- `ALU.W100101`: `out <- -1` (R227). -/
def execAluW100101 (x y : Bus 16) (s : State) : Answer := aluControl 0b100101#6 x y s

/-- `ALU.W100110`: `out <- !y` (R228). -/
def execAluW100110 (x y : Bus 16) (s : State) : Answer := aluControl 0b100110#6 x y s

/-- `ALU.W100111`: `out <- y` (R229). -/
def execAluW100111 (x y : Bus 16) (s : State) : Answer := aluControl 0b100111#6 x y s

/-- `ALU.W101000`: `out <- 0` (R230). -/
def execAluW101000 (x y : Bus 16) (s : State) : Answer := aluControl 0b101000#6 x y s

/-- `ALU.W101001`: `out <- -1` (R231). -/
def execAluW101001 (x y : Bus 16) (s : State) : Answer := aluControl 0b101001#6 x y s

/-- `ALU.W101011`: `out <- -1` (R232). -/
def execAluW101011 (x y : Bus 16) (s : State) : Answer := aluControl 0b101011#6 x y s

/-- `ALU.W101100`: `out <- 0` (R233). -/
def execAluW101100 (x y : Bus 16) (s : State) : Answer := aluControl 0b101100#6 x y s

/-- `ALU.W101101`: `out <- -1` (R234). -/
def execAluW101101 (x y : Bus 16) (s : State) : Answer := aluControl 0b101101#6 x y s

/-- `ALU.W101110`: `out <- -1` (R235). -/
def execAluW101110 (x y : Bus 16) (s : State) : Answer := aluControl 0b101110#6 x y s

/-- `ALU.W101111`: `out <- 0` (R236). -/
def execAluW101111 (x y : Bus 16) (s : State) : Answer := aluControl 0b101111#6 x y s

/-- `ALU.W110100`: `out <- !y` (R237). -/
def execAluW110100 (x y : Bus 16) (s : State) : Answer := aluControl 0b110100#6 x y s

/-- `ALU.W110101`: `out <- y` (R238). -/
def execAluW110101 (x y : Bus 16) (s : State) : Answer := aluControl 0b110101#6 x y s

/-- `ALU.W110110`: `out <- -y-2` (R239). -/
def execAluW110110 (x y : Bus 16) (s : State) : Answer := aluControl 0b110110#6 x y s

/-- `ALU.W111000`: `out <- 0` (R240). -/
def execAluW111000 (x y : Bus 16) (s : State) : Answer := aluControl 0b111000#6 x y s

/-- `ALU.W111001`: `out <- -1` (R241). -/
def execAluW111001 (x y : Bus 16) (s : State) : Answer := aluControl 0b111001#6 x y s

/-- `ALU.W111011`: `out <- 0` (R242). -/
def execAluW111011 (x y : Bus 16) (s : State) : Answer := aluControl 0b111011#6 x y s

/-- `ALU.W111100`: `out <- -1` (R243). -/
def execAluW111100 (x y : Bus 16) (s : State) : Answer := aluControl 0b111100#6 x y s

/-- `ALU.W111101`: `out <- 0` (R244). -/
def execAluW111101 (x y : Bus 16) (s : State) : Answer := aluControl 0b111101#6 x y s

/-- `ALU.W111110`: `out <- -2` (R245). -/
def execAluW111110 (x y : Bus 16) (s : State) : Answer := aluControl 0b111110#6 x y s

end Sys2Proof.Machine
end

