-- ==== Sys2Proof/Machine/AluOperations.lean ====
section
/-! DEFINITION. The 18 control words of the ALU's repertoire (spec/46_alu_operations.md R170 to R187): each is
the `alu` call with that word (spec/30_encoding.md R64).  The closed form in each docstring is the rule's; the statements
of Certificates/ say that the call computes it. -/

namespace Sys2Proof.Machine

/-- `ALU.ZERO`: `out <- 0` (R170). -/
def execAluZero (x y : Bus 16) (s : State) : Answer := aluControl 0b101010#6 x y s

/-- `ALU.ONE`: `out <- 1` (R171). -/
def execAluOne (x y : Bus 16) (s : State) : Answer := aluControl 0b111111#6 x y s

/-- `ALU.NEG1`: `out <- -1` (R172). -/
def execAluNeg1 (x y : Bus 16) (s : State) : Answer := aluControl 0b111010#6 x y s

/-- `ALU.X`: `out <- x` (R173). -/
def execAluX (x y : Bus 16) (s : State) : Answer := aluControl 0b001100#6 x y s

/-- `ALU.Y`: `out <- y` (R174). -/
def execAluY (x y : Bus 16) (s : State) : Answer := aluControl 0b110000#6 x y s

/-- `ALU.NOTX`: `out <- !x` (R175). -/
def execAluNotX (x y : Bus 16) (s : State) : Answer := aluControl 0b001101#6 x y s

/-- `ALU.NOTY`: `out <- !y` (R176). -/
def execAluNotY (x y : Bus 16) (s : State) : Answer := aluControl 0b110001#6 x y s

/-- `ALU.NEGX`: `out <- -x` (R177). -/
def execAluNegX (x y : Bus 16) (s : State) : Answer := aluControl 0b001111#6 x y s

/-- `ALU.NEGY`: `out <- -y` (R178). -/
def execAluNegY (x y : Bus 16) (s : State) : Answer := aluControl 0b110011#6 x y s

/-- `ALU.INCX`: `out <- x+1` (R179). -/
def execAluIncX (x y : Bus 16) (s : State) : Answer := aluControl 0b011111#6 x y s

/-- `ALU.INCY`: `out <- y+1` (R180). -/
def execAluIncY (x y : Bus 16) (s : State) : Answer := aluControl 0b110111#6 x y s

/-- `ALU.DECX`: `out <- x-1` (R181). -/
def execAluDecX (x y : Bus 16) (s : State) : Answer := aluControl 0b001110#6 x y s

/-- `ALU.DECY`: `out <- y-1` (R182). -/
def execAluDecY (x y : Bus 16) (s : State) : Answer := aluControl 0b110010#6 x y s

/-- `ALU.ADD`: `out <- x+y` (R183). -/
def execAluAdd (x y : Bus 16) (s : State) : Answer := aluControl 0b000010#6 x y s

/-- `ALU.SUBXY`: `out <- x-y` (R184). -/
def execAluSubXY (x y : Bus 16) (s : State) : Answer := aluControl 0b010011#6 x y s

/-- `ALU.SUBYX`: `out <- y-x` (R185). -/
def execAluSubYX (x y : Bus 16) (s : State) : Answer := aluControl 0b000111#6 x y s

/-- `ALU.AND`: `out <- x&y` (R186). -/
def execAluAnd (x y : Bus 16) (s : State) : Answer := aluControl 0b000000#6 x y s

/-- `ALU.OR`: `out <- x|y` (R187). -/
def execAluOr (x y : Bus 16) (s : State) : Answer := aluControl 0b010101#6 x y s

end Sys2Proof.Machine
end

