-- ==== Sys2Proof/Machine/SelectorRows.lean ====
section
/-! DEFINITION. The selector rows of the opcode table (formats SEL1, SEL2, SEL3; spec/30_encoding.md R56, R57, R65): each is
its cell evaluated with that selector value. -/

namespace Sys2Proof.Machine

/-- `mux.sel_a`: `mux` with selector `0` (R84). -/
def execMuxSelA (a b : Bit) (s : State) : Answer :=
  execMuxBit a b false s

/-- `mux.sel_b`: `mux` with selector `1` (R84). -/
def execMuxSelB (a b : Bit) (s : State) : Answer :=
  execMuxBit a b true s

/-- `demux.sel_out1`: `demux` with selector `0` (R85). -/
def execDemuxSelOut1 (i : Bit) (s : State) : Answer :=
  execDemuxBit i false s

/-- `demux.sel_out0`: `demux` with selector `1` (R85). -/
def execDemuxSelOut0 (i : Bit) (s : State) : Answer :=
  execDemuxBit i true s

/-- `mux4.sel_a`: `mux4` with selector `0` (R103). -/
def execMux4SelA (a b : Bus 4) (s : State) : Answer :=
  execMux4 a b false s

/-- `mux4.sel_b`: `mux4` with selector `1` (R103). -/
def execMux4SelB (a b : Bus 4) (s : State) : Answer :=
  execMux4 a b true s

/-- `mux8.sel_a`: `mux8` with selector `0` (R104). -/
def execMux8SelA (a b : Bus 8) (s : State) : Answer :=
  execMux8 a b false s

/-- `mux8.sel_b`: `mux8` with selector `1` (R104). -/
def execMux8SelB (a b : Bus 8) (s : State) : Answer :=
  execMux8 a b true s

/-- `mux16.sel_a`: `mux16` with selector `0` (R105). -/
def execMux16SelA (a b : Bus 16) (s : State) : Answer :=
  execMux16 a b false s

/-- `mux16.sel_b`: `mux16` with selector `1` (R105). -/
def execMux16SelB (a b : Bus 16) (s : State) : Answer :=
  execMux16 a b true s

/-- `mux4way16.sel_a`: `mux4way16` with selector `00` (R112). -/
def execMux4way16SelA (a b c d : Bus 16) (s : State) : Answer :=
  execMux4way16 a b c d 0b00#2 s

/-- `mux4way16.sel_b`: `mux4way16` with selector `01` (R112). -/
def execMux4way16SelB (a b c d : Bus 16) (s : State) : Answer :=
  execMux4way16 a b c d 0b01#2 s

/-- `mux4way16.sel_c`: `mux4way16` with selector `10` (R112). -/
def execMux4way16SelC (a b c d : Bus 16) (s : State) : Answer :=
  execMux4way16 a b c d 0b10#2 s

/-- `mux4way16.sel_d`: `mux4way16` with selector `11` (R112). -/
def execMux4way16SelD (a b c d : Bus 16) (s : State) : Answer :=
  execMux4way16 a b c d 0b11#2 s

/-- `mux8way16.sel_a`: `mux8way16` with selector `000` (R113). -/
def execMux8way16SelA (a b c d e f g h : Bus 16) (s : State) : Answer :=
  execMux8way16 a b c d e f g h 0b000#3 s

/-- `mux8way16.sel_b`: `mux8way16` with selector `001` (R113). -/
def execMux8way16SelB (a b c d e f g h : Bus 16) (s : State) : Answer :=
  execMux8way16 a b c d e f g h 0b001#3 s

/-- `mux8way16.sel_c`: `mux8way16` with selector `010` (R113). -/
def execMux8way16SelC (a b c d e f g h : Bus 16) (s : State) : Answer :=
  execMux8way16 a b c d e f g h 0b010#3 s

/-- `mux8way16.sel_d`: `mux8way16` with selector `011` (R113). -/
def execMux8way16SelD (a b c d e f g h : Bus 16) (s : State) : Answer :=
  execMux8way16 a b c d e f g h 0b011#3 s

/-- `mux8way16.sel_e`: `mux8way16` with selector `100` (R113). -/
def execMux8way16SelE (a b c d e f g h : Bus 16) (s : State) : Answer :=
  execMux8way16 a b c d e f g h 0b100#3 s

/-- `mux8way16.sel_f`: `mux8way16` with selector `101` (R113). -/
def execMux8way16SelF (a b c d e f g h : Bus 16) (s : State) : Answer :=
  execMux8way16 a b c d e f g h 0b101#3 s

/-- `mux8way16.sel_g`: `mux8way16` with selector `110` (R113). -/
def execMux8way16SelG (a b c d e f g h : Bus 16) (s : State) : Answer :=
  execMux8way16 a b c d e f g h 0b110#3 s

/-- `mux8way16.sel_h`: `mux8way16` with selector `111` (R113). -/
def execMux8way16SelH (a b c d e f g h : Bus 16) (s : State) : Answer :=
  execMux8way16 a b c d e f g h 0b111#3 s

/-- `demux4way.sel_v0`: `demux4way` with selector `00` (R114). -/
def execDemux4waySelV0 (i : Bit) (s : State) : Answer :=
  execDemux4way i 0b00#2 s

/-- `demux4way.sel_v1`: `demux4way` with selector `01` (R114). -/
def execDemux4waySelV1 (i : Bit) (s : State) : Answer :=
  execDemux4way i 0b01#2 s

/-- `demux4way.sel_v2`: `demux4way` with selector `10` (R114). -/
def execDemux4waySelV2 (i : Bit) (s : State) : Answer :=
  execDemux4way i 0b10#2 s

/-- `demux4way.sel_v3`: `demux4way` with selector `11` (R114). -/
def execDemux4waySelV3 (i : Bit) (s : State) : Answer :=
  execDemux4way i 0b11#2 s

/-- `demux8way.sel_v0`: `demux8way` with selector `000` (R115). -/
def execDemux8waySelV0 (i : Bit) (s : State) : Answer :=
  execDemux8way i 0b000#3 s

/-- `demux8way.sel_v1`: `demux8way` with selector `001` (R115). -/
def execDemux8waySelV1 (i : Bit) (s : State) : Answer :=
  execDemux8way i 0b001#3 s

/-- `demux8way.sel_v2`: `demux8way` with selector `010` (R115). -/
def execDemux8waySelV2 (i : Bit) (s : State) : Answer :=
  execDemux8way i 0b010#3 s

/-- `demux8way.sel_v3`: `demux8way` with selector `011` (R115). -/
def execDemux8waySelV3 (i : Bit) (s : State) : Answer :=
  execDemux8way i 0b011#3 s

/-- `demux8way.sel_v4`: `demux8way` with selector `100` (R115). -/
def execDemux8waySelV4 (i : Bit) (s : State) : Answer :=
  execDemux8way i 0b100#3 s

/-- `demux8way.sel_v5`: `demux8way` with selector `101` (R115). -/
def execDemux8waySelV5 (i : Bit) (s : State) : Answer :=
  execDemux8way i 0b101#3 s

/-- `demux8way.sel_v6`: `demux8way` with selector `110` (R115). -/
def execDemux8waySelV6 (i : Bit) (s : State) : Answer :=
  execDemux8way i 0b110#3 s

/-- `demux8way.sel_v7`: `demux8way` with selector `111` (R115). -/
def execDemux8waySelV7 (i : Bit) (s : State) : Answer :=
  execDemux8way i 0b111#3 s

end Sys2Proof.Machine
end

