-- ==== Sys2Proof/Machine/Dispatch.lean ====
section
/-! DEFINITION. The meaning of every instruction: one arm per constructor of Instr, in the opcode table's order. -/

namespace Sys2Proof.Machine

def exec (i : Instr) (s : State) : Host.Outcome State Fault Refusal :=
  match i with
  | .aluAnd x y => Sys2Proof.Machine.execAluAnd x y s
  | .aluW000001 x y => Sys2Proof.Machine.execAluW000001 x y s
  | .aluAdd x y => Sys2Proof.Machine.execAluAdd x y s
  | .aluW000011 x y => Sys2Proof.Machine.execAluW000011 x y s
  | .aluW000100 x y => Sys2Proof.Machine.execAluW000100 x y s
  | .aluW000101 x y => Sys2Proof.Machine.execAluW000101 x y s
  | .aluW000110 x y => Sys2Proof.Machine.execAluW000110 x y s
  | .aluSubYX x y => Sys2Proof.Machine.execAluSubYX x y s
  | .aluW001000 x y => Sys2Proof.Machine.execAluW001000 x y s
  | .aluW001001 x y => Sys2Proof.Machine.execAluW001001 x y s
  | .aluW001010 x y => Sys2Proof.Machine.execAluW001010 x y s
  | .aluW001011 x y => Sys2Proof.Machine.execAluW001011 x y s
  | .aluX x y => Sys2Proof.Machine.execAluX x y s
  | .aluNotX x y => Sys2Proof.Machine.execAluNotX x y s
  | .aluDecX x y => Sys2Proof.Machine.execAluDecX x y s
  | .aluNegX x y => Sys2Proof.Machine.execAluNegX x y s
  | .aluW010000 x y => Sys2Proof.Machine.execAluW010000 x y s
  | .aluW010001 x y => Sys2Proof.Machine.execAluW010001 x y s
  | .aluW010010 x y => Sys2Proof.Machine.execAluW010010 x y s
  | .aluSubXY x y => Sys2Proof.Machine.execAluSubXY x y s
  | .aluW010100 x y => Sys2Proof.Machine.execAluW010100 x y s
  | .aluOr x y => Sys2Proof.Machine.execAluOr x y s
  | .aluW010110 x y => Sys2Proof.Machine.execAluW010110 x y s
  | .aluW010111 x y => Sys2Proof.Machine.execAluW010111 x y s
  | .aluW011000 x y => Sys2Proof.Machine.execAluW011000 x y s
  | .aluW011001 x y => Sys2Proof.Machine.execAluW011001 x y s
  | .aluW011010 x y => Sys2Proof.Machine.execAluW011010 x y s
  | .aluW011011 x y => Sys2Proof.Machine.execAluW011011 x y s
  | .aluW011100 x y => Sys2Proof.Machine.execAluW011100 x y s
  | .aluW011101 x y => Sys2Proof.Machine.execAluW011101 x y s
  | .aluW011110 x y => Sys2Proof.Machine.execAluW011110 x y s
  | .aluIncX x y => Sys2Proof.Machine.execAluIncX x y s
  | .aluW100000 x y => Sys2Proof.Machine.execAluW100000 x y s
  | .aluW100001 x y => Sys2Proof.Machine.execAluW100001 x y s
  | .aluW100010 x y => Sys2Proof.Machine.execAluW100010 x y s
  | .aluW100011 x y => Sys2Proof.Machine.execAluW100011 x y s
  | .aluW100100 x y => Sys2Proof.Machine.execAluW100100 x y s
  | .aluW100101 x y => Sys2Proof.Machine.execAluW100101 x y s
  | .aluW100110 x y => Sys2Proof.Machine.execAluW100110 x y s
  | .aluW100111 x y => Sys2Proof.Machine.execAluW100111 x y s
  | .aluW101000 x y => Sys2Proof.Machine.execAluW101000 x y s
  | .aluW101001 x y => Sys2Proof.Machine.execAluW101001 x y s
  | .aluZero x y => Sys2Proof.Machine.execAluZero x y s
  | .aluW101011 x y => Sys2Proof.Machine.execAluW101011 x y s
  | .aluW101100 x y => Sys2Proof.Machine.execAluW101100 x y s
  | .aluW101101 x y => Sys2Proof.Machine.execAluW101101 x y s
  | .aluW101110 x y => Sys2Proof.Machine.execAluW101110 x y s
  | .aluW101111 x y => Sys2Proof.Machine.execAluW101111 x y s
  | .aluY x y => Sys2Proof.Machine.execAluY x y s
  | .aluNotY x y => Sys2Proof.Machine.execAluNotY x y s
  | .aluDecY x y => Sys2Proof.Machine.execAluDecY x y s
  | .aluNegY x y => Sys2Proof.Machine.execAluNegY x y s
  | .aluW110100 x y => Sys2Proof.Machine.execAluW110100 x y s
  | .aluW110101 x y => Sys2Proof.Machine.execAluW110101 x y s
  | .aluW110110 x y => Sys2Proof.Machine.execAluW110110 x y s
  | .aluIncY x y => Sys2Proof.Machine.execAluIncY x y s
  | .aluW111000 x y => Sys2Proof.Machine.execAluW111000 x y s
  | .aluW111001 x y => Sys2Proof.Machine.execAluW111001 x y s
  | .aluNeg1 x y => Sys2Proof.Machine.execAluNeg1 x y s
  | .aluW111011 x y => Sys2Proof.Machine.execAluW111011 x y s
  | .aluW111100 x y => Sys2Proof.Machine.execAluW111100 x y s
  | .aluW111101 x y => Sys2Proof.Machine.execAluW111101 x y s
  | .aluW111110 x y => Sys2Proof.Machine.execAluW111110 x y s
  | .aluOne x y => Sys2Proof.Machine.execAluOne x y s
  | .muxSelA a b => Sys2Proof.Machine.execMuxSelA a b s
  | .muxSelB a b => Sys2Proof.Machine.execMuxSelB a b s
  | .demuxSelOut1 inp => Sys2Proof.Machine.execDemuxSelOut1 inp s
  | .demuxSelOut0 inp => Sys2Proof.Machine.execDemuxSelOut0 inp s
  | .mux4SelA a b => Sys2Proof.Machine.execMux4SelA a b s
  | .mux4SelB a b => Sys2Proof.Machine.execMux4SelB a b s
  | .mux8SelA a b => Sys2Proof.Machine.execMux8SelA a b s
  | .mux8SelB a b => Sys2Proof.Machine.execMux8SelB a b s
  | .mux16SelA a b => Sys2Proof.Machine.execMux16SelA a b s
  | .mux16SelB a b => Sys2Proof.Machine.execMux16SelB a b s
  | .mux4way16SelA a b c d => Sys2Proof.Machine.execMux4way16SelA a b c d s
  | .mux4way16SelB a b c d => Sys2Proof.Machine.execMux4way16SelB a b c d s
  | .mux4way16SelC a b c d => Sys2Proof.Machine.execMux4way16SelC a b c d s
  | .mux4way16SelD a b c d => Sys2Proof.Machine.execMux4way16SelD a b c d s
  | .mux8way16SelA a b c d e f g h => Sys2Proof.Machine.execMux8way16SelA a b c d e f g h s
  | .mux8way16SelB a b c d e f g h => Sys2Proof.Machine.execMux8way16SelB a b c d e f g h s
  | .mux8way16SelC a b c d e f g h => Sys2Proof.Machine.execMux8way16SelC a b c d e f g h s
  | .mux8way16SelD a b c d e f g h => Sys2Proof.Machine.execMux8way16SelD a b c d e f g h s
  | .mux8way16SelE a b c d e f g h => Sys2Proof.Machine.execMux8way16SelE a b c d e f g h s
  | .mux8way16SelF a b c d e f g h => Sys2Proof.Machine.execMux8way16SelF a b c d e f g h s
  | .mux8way16SelG a b c d e f g h => Sys2Proof.Machine.execMux8way16SelG a b c d e f g h s
  | .mux8way16SelH a b c d e f g h => Sys2Proof.Machine.execMux8way16SelH a b c d e f g h s
  | .demux4waySelV0 inp => Sys2Proof.Machine.execDemux4waySelV0 inp s
  | .demux4waySelV1 inp => Sys2Proof.Machine.execDemux4waySelV1 inp s
  | .demux4waySelV2 inp => Sys2Proof.Machine.execDemux4waySelV2 inp s
  | .demux4waySelV3 inp => Sys2Proof.Machine.execDemux4waySelV3 inp s
  | .demux8waySelV0 inp => Sys2Proof.Machine.execDemux8waySelV0 inp s
  | .demux8waySelV1 inp => Sys2Proof.Machine.execDemux8waySelV1 inp s
  | .demux8waySelV2 inp => Sys2Proof.Machine.execDemux8waySelV2 inp s
  | .demux8waySelV3 inp => Sys2Proof.Machine.execDemux8waySelV3 inp s
  | .demux8waySelV4 inp => Sys2Proof.Machine.execDemux8waySelV4 inp s
  | .demux8waySelV5 inp => Sys2Proof.Machine.execDemux8waySelV5 inp s
  | .demux8waySelV6 inp => Sys2Proof.Machine.execDemux8waySelV6 inp s
  | .demux8waySelV7 inp => Sys2Proof.Machine.execDemux8waySelV7 inp s
  | .nandGate a b => Sys2Proof.Machine.execNandGate a b s
  | .notGate a => Sys2Proof.Machine.execNotGate a s
  | .andGate a b => Sys2Proof.Machine.execAndGate a b s
  | .orGate a b => Sys2Proof.Machine.execOrGate a b s
  | .xorGate a b => Sys2Proof.Machine.execXorGate a b s
  | .muxBit a b sel => Sys2Proof.Machine.execMuxBit a b sel s
  | .demuxBit inp sel => Sys2Proof.Machine.execDemuxBit inp sel s
  | .not4 a => Sys2Proof.Machine.execNot4 a s
  | .not8 a => Sys2Proof.Machine.execNot8 a s
  | .not16 a => Sys2Proof.Machine.execNot16 a s
  | .and4 a b => Sys2Proof.Machine.execAnd4 a b s
  | .and8 a b => Sys2Proof.Machine.execAnd8 a b s
  | .and16 a b => Sys2Proof.Machine.execAnd16 a b s
  | .or4 a b => Sys2Proof.Machine.execOr4 a b s
  | .or8 a b => Sys2Proof.Machine.execOr8 a b s
  | .or16 a b => Sys2Proof.Machine.execOr16 a b s
  | .xor4 a b => Sys2Proof.Machine.execXor4 a b s
  | .xor8 a b => Sys2Proof.Machine.execXor8 a b s
  | .xor16 a b => Sys2Proof.Machine.execXor16 a b s
  | .mux4 a b sel => Sys2Proof.Machine.execMux4 a b sel s
  | .mux8 a b sel => Sys2Proof.Machine.execMux8 a b sel s
  | .mux16 a b sel => Sys2Proof.Machine.execMux16 a b sel s
  | .or8way a => Sys2Proof.Machine.execOr8way a s
  | .and8way a => Sys2Proof.Machine.execAnd8way a s
  | .mux4way16 a b c d sel => Sys2Proof.Machine.execMux4way16 a b c d sel s
  | .mux8way16 a b c d e f g h sel => Sys2Proof.Machine.execMux8way16 a b c d e f g h sel s
  | .demux4way inp sel => Sys2Proof.Machine.execDemux4way inp sel s
  | .demux8way inp sel => Sys2Proof.Machine.execDemux8way inp sel s
  | .or16way a => Sys2Proof.Machine.execOr16way a s
  | .halfAdder a b => Sys2Proof.Machine.execHalfAdder a b s
  | .fullAdder a b c => Sys2Proof.Machine.execFullAdder a b c s
  | .adder4 a b => Sys2Proof.Machine.execAdder4 a b s
  | .adder8 a b => Sys2Proof.Machine.execAdder8 a b s
  | .adder16 a b => Sys2Proof.Machine.execAdder16 a b s
  | .incrementer4 a => Sys2Proof.Machine.execIncrementer4 a s
  | .incrementer8 a => Sys2Proof.Machine.execIncrementer8 a s
  | .incrementer16 a => Sys2Proof.Machine.execIncrementer16 a s
  | .alu x y zx nx zy ny f no => Sys2Proof.Machine.execAlu x y zx nx zy ny f no s

end Sys2Proof.Machine
end

