-- ==== Sys2Proof/Machine/Step.lean ====
section
/-! DEFINITION. One step: the next evaluation the host has presented is decoded and made (spec/00_scope.md R8;
spec/70_reset_and_hazards.md R297, R298). -/

namespace Sys2Proof.Machine

/-- One evaluation: the instruction of the next request.  With nothing presented there is nothing to evaluate and nothing
changes (R298: nothing is pending after an evaluation; notes/assumptions/5.md).  No check is made here: a request has its width
by its type (R14: refused when the term is built, not when it runs). -/
def step (s : State) : Host.Outcome State Fault Refusal :=
  match fetch s with
  | none => .next s
  | some (r, s') => exec r.instr s'

/-- `s` with the table's word presented as the very next evaluation (the host interface of the model; there is no program
counter to place it at, notes/assumptions/6.md).  A word that does not fit its vector is refused as it is presented, and
nothing is presented (R14, R61). -/
def State.withFetchWord (s : State) (nbits w : Nat) : State :=
  match tableRequest nbits w with
  | some r => s.withRequests (r :: s.requests)
  | none => s

end Sys2Proof.Machine
end

