-- ==== Sys2Proof/Machine/Design.lean ====
section
/-! DEFINITION. What a host does with the cells (spec/70_reset_and_hazards.md R297, R298): a design is a finite list of
evaluations, each taking its inputs from host values and from outputs of earlier evaluations.  Its evaluation gives the
outputs of every stage.  All sequencing and every decision taken on an output stays the host's (R297): a design has no
branch. -/

namespace Sys2Proof.Machine

/-- The state in which a host with this parameter makes one evaluation: nothing else is presented. -/
def State.idle (order : WideDemuxOrder) : State := ⟨order, [], none⟩

/-- One evaluation of a call: the signals on the output ports; none when the call is refused as it is built. -/
def evalCall (order : WideDemuxOrder) (k : Call) : Option (List Signal) :=
  match k.toInstr with
  | .error _ => none
  | .ok i =>
    match exec i (State.idle order) with
    | .next t => t.outputs.map Outputs.signals
    | _ => none

/-- The signal of a type with these Bits, index 0 first. -/
def signalOf (t : SigType) (l : List Bit) : Signal :=
  match t with
  | .bit => .bit (l.getD 0 false)
  | .bus w => .bus w (ofBits w.size l)
  | .sel k => .sel k (ofBits k.size l)
  | .pair => .pair (l.getD 0 false) (l.getD 1 false)

/-- The signal of a source, given the output signals of the stages before it. -/
def Source.value (vs : List (List Signal)) : Source → Option Signal
  | .lit v => some v
  | .out k j => (vs[k]?).bind fun os => os[j]?

/-- The Bits wires carry, index 0 first; none where `Wires.count` refuses them. -/
def Wires.value (vs : List (List Signal)) : Wires → Option (List Bit)
  | .bit s =>
    match Source.value vs s with
    | some (.bit b) => some [b]
    | _ => none
  | .index s i =>
    match Source.value vs s with
    | some (.bus w b) => if i < w.size then some [bitAt b i] else none
    | some (.sel k b) => if i < k.size then some [bitAt b i] else none
    | some (.pair e0 e1) => if i < 2 then some [if i = 0 then e0 else e1] else none
    | _ => none
  | .slice s i j =>
    match Source.value vs s with
    | some (.bus w b) =>
      if i ≤ j ∧ j < w.size then some ((List.range (j - i + 1)).map fun k => bitAt b (i + k)) else none
    | _ => none
  | .cat u v =>
    match Wires.value vs u, Wires.value vs v with
    | some l, some l' => some (l ++ l')
    | _, _ => none

/-- The signal a port is connected to; none where `Src.type` refuses it. -/
def Src.value (vs : List (List Signal)) : Src → Option Signal
  | .whole s => Source.value vs s
  | .bundle t u =>
    match Wires.value vs u with
    | some l => if l.length = t.width then some (signalOf t l) else none
    | none => none

/-- The signals of a list of sources. -/
def Src.values (vs : List (List Signal)) : List Src → Option (List Signal)
  | [] => some []
  | s :: ss =>
    match Src.value vs s, Src.values vs ss with
    | some v, some us => some (v :: us)
    | _, _ => none

/-- One stage: its inputs, and then one evaluation of its cell. -/
def Stage.eval (order : WideDemuxOrder) (vs : List (List Signal)) (g : Stage) : Option (List Signal) :=
  match Src.values vs g.args with
  | some us => evalCall order ⟨g.cell, us⟩
  | none => none

/-- The evaluation of a design, stage after stage: the output signals of every stage (the bindings of R298). -/
def Design.eval (order : WideDemuxOrder) : List (List Signal) → Design → Option (List (List Signal))
  | vs, [] => some vs
  | vs, g :: d =>
    match Stage.eval order vs g with
    | some os => Design.eval order (vs ++ [os]) d
    | none => none

end Sys2Proof.Machine
end

