-- ==== Sys2Proof/Machine/Netlist.lean ====
section
/-! DEFINITION. Networks of `nand` cells (spec/40_nand_primitive.md R71: "exactly one leaf gate type, nand, plus the
tie-offs").  A network is built one gate at a time, so a gate reads only wires that exist already: there is no loop
(spec/70_reset_and_hazards.md R292).  One wire may feed any number of inputs (spec/92_eei_decisions.md D22). -/

namespace Sys2Proof.Machine

/-- A source of a signal inside a cell: a constant tie-off (spec/10_state.md R31), a Bit of the cell's input vector, or the
output of a gate. -/
inductive Wire where
  | tie (b : Bit)
  | input (i : Nat)
  | gate (k : Nat)
deriving DecidableEq, Repr

/-- One `nand` cell: what its two inputs are wired to. -/
structure Gate where
  a : Wire
  b : Wire
deriving DecidableEq, Repr

/-- A network: its number of gates, and the gates, the newest first; gate `k` is the one built when the size was `k`. -/
structure Net where
  size : Nat
  gates : List Gate
deriving DecidableEq, Repr

/-- The network without gates. -/
def Net.empty : Net := ⟨0, []⟩

/-- A piece of construction: it adds gates to a network and answers the wires it made. -/
abbrev Build (α : Type) := StateM Net α

/-- Add one `nand` cell (R70). -/
def nandS (a b : Wire) : Build Wire := fun n => (.gate n.size, ⟨n.size + 1, ⟨a, b⟩ :: n.gates⟩)

/-- The value of a wire, given the Bits of the input vector and the values of the gates, the newest first. -/
def Wire.read (inp vs : List Bit) : Wire → Bit
  | .tie b => b
  | .input i => inp.getD i false
  | .gate k => vs.getD (vs.length - 1 - k) false

/-- The settled values of the gates, the newest first, found in dependency order (R292, R293). -/
def gateValues (inp : List Bit) : List Gate → List Bit
  | [] => []
  | g :: gs => nandOf (g.a.read inp (gateValues inp gs)) (g.b.read inp (gateValues inp gs)) :: gateValues inp gs

/-- The settled value of a wire of a network. -/
def Net.read (n : Net) (inp : List Bit) (w : Wire) : Bit := w.read inp (gateValues inp n.gates)

/-- A wire that exists in a network with `size` gates and `width` input Bits. -/
def Wire.within (width size : Nat) : Wire → Bool
  | .tie _ => true
  | .input i => i < width
  | .gate k => k < size

/-- Every gate reads only input Bits, tie-offs and gates built before it: the network is acyclic (R2, R292). -/
def gatesAcyclic (width : Nat) : List Gate → Bool
  | [] => true
  | g :: gs => g.a.within width gs.length && g.b.within width gs.length && gatesAcyclic width gs

/-- The size counts the gates, and the gates are acyclic. -/
def Net.wf (width : Nat) (n : Net) : Bool := n.size == n.gates.length && gatesAcyclic width n.gates

end Sys2Proof.Machine
end

