-- ==== Sys2Proof/Machine/Structure.lean ====
section
/-! DEFINITION. The structure of every cell: its composition out of earlier cells, down to `nand` (spec/00_scope.md R2).
Each definition is the "Structure" of its rule; where the source gives none, it is the spec's own choice
(spec/92_eei_decisions.md D4, D6 to D11).  A bus is the list of its wires, index 0 first. -/

namespace Sys2Proof.Machine

/-! ## Scalar cells -/

/-- R80: `not(a) = nand(a,a)`. -/
def notS (a : Wire) : Build Wire := nandS a a

/-- R81: `and(a,b) = not(nand(a,b))`. -/
def andS (a b : Wire) : Build Wire := do
  let t ← nandS a b
  notS t

/-- R82: `or(a,b) = not(and(not(a), not(b)))`. -/
def orS (a b : Wire) : Build Wire := do
  let na ← notS a
  let nb ← notS b
  let t ← andS na nb
  notS t

/-- R83: `xor(a,b) = not(and(or(not(a),b), or(a,not(b))))`. -/
def xorS (a b : Wire) : Build Wire := do
  let na ← notS a
  let p ← orS na b
  let nb ← notS b
  let q ← orS a nb
  let t ← andS p q
  notS t

/-- R84: `not(xor(or(s,a), or(not(s),b)))`. -/
def muxS (a b sel : Wire) : Build Wire := do
  let p ← orS sel a
  let ns ← notS sel
  let q ← orS ns b
  let t ← xorS p q
  notS t

/-- R85, D4: `[and(i, s), and(i, not(s))]`. -/
def demuxS (i sel : Wire) : Build (Wire × Wire) := do
  let o0 ← andS i sel
  let ns ← notS sel
  let o1 ← andS i ns
  pure (o0, o1)

/-! ## Bus cells -/

/-- R90: one copy of a one-input cell per index. -/
def lift1S (g : Wire → Build Wire) : List Wire → Build (List Wire)
  | [] => pure []
  | a :: as => do
    let o ← g a
    let os ← lift1S g as
    pure (o :: os)

/-- R90: one copy of a two-input cell per index. -/
def lift2S (g : Wire → Wire → Build Wire) : List Wire → List Wire → Build (List Wire)
  | a :: as, b :: bs => do
    let o ← g a b
    let os ← lift2S g as bs
    pure (o :: os)
  | _, _ => pure []

/-- R90: copies of the scalar `mux`, all driven by the same selector Bit. -/
def muxBusS (as bs : List Wire) (sel : Wire) : Build (List Wire) := lift2S (fun a b => muxS a b sel) as bs

/-! ## Wide cells -/

/-- R110, R111, D7: the balanced tree of seven two-input cells over eight adjacent Bits. -/
def tree8S (g : Wire → Wire → Build Wire) : List Wire → Build Wire
  | [a0, a1, a2, a3, a4, a5, a6, a7] => do
    let p0 ← g a0 a1
    let p1 ← g a2 a3
    let p2 ← g a4 a5
    let p3 ← g a6 a7
    let q0 ← g p0 p1
    let q1 ← g p2 p3
    g q0 q1
  | _ => pure (.tie false)

/-- R116, D11: `or(or8way(a[0..7]), or8way(a[8..15]))`. -/
def or16wayS (as : List Wire) : Build Wire := do
  let p ← tree8S orS (as.take 8)
  let q ← tree8S orS (as.drop 8)
  orS p q

/-- R112, D8: `mux16(mux16(a, b, s[1]), mux16(c, d, s[1]), s[0])`. -/
def mux4way16S (a b c d : List Wire) (s0 s1 : Wire) : Build (List Wire) := do
  let ab ← muxBusS a b s1
  let cd ← muxBusS c d s1
  muxBusS ab cd s0

/-- R113, D8: three levels of `mux16`, `s[2]` at the leaves and `s[0]` at the root. -/
def mux8way16S (a b c d e f g h : List Wire) (s0 s1 s2 : Wire) : Build (List Wire) := do
  let ab ← muxBusS a b s2
  let cd ← muxBusS c d s2
  let ef ← muxBusS e f s2
  let gh ← muxBusS g h s2
  let abcd ← muxBusS ab cd s1
  let efgh ← muxBusS ef gh s1
  muxBusS abcd efgh s0

/-- The leaf outputs in the order of the parameter: as the tree gives them, or reversed (R114, R115, D6). -/
def orderLeaves (order : WideDemuxOrder) (ws : List Wire) : List Wire :=
  match order with
  | .significance => ws
  | .index => ws.reverse

/-- R114, D6: a tree of three `demux` cells, in the default order. -/
def demux4wayTreeS (i s0 s1 : Wire) : Build (List Wire) := do
  let (hi, lo) ← demuxS i s0
  let (o0, o1) ← demuxS hi s1
  let (o2, o3) ← demuxS lo s1
  pure [o0, o1, o2, o3]

/-- R115, D6: one `demux` feeding two trees of three, in the default order. -/
def demux8wayTreeS (i s0 s1 s2 : Wire) : Build (List Wire) := do
  let (hi, lo) ← demuxS i s0
  let ws ← demux4wayTreeS hi s1 s2
  let vs ← demux4wayTreeS lo s1 s2
  pure (ws ++ vs)

/-! ## Adders -/

/-- R130: `carry = and(a,b)`, `sum = xor(a,b)`. -/
def halfAdderS (a b : Wire) : Build (Wire × Wire) := do
  let c ← andS a b
  let t ← xorS a b
  pure (c, t)

/-- R131: two half adders, and the OR of their carries. -/
def fullAdderS (a b c : Wire) : Build (Wire × Wire) := do
  let (c1, s1) ← halfAdderS a b
  let (c2, s2) ← halfAdderS s1 c
  let k ← orS c1 c2
  pure (k, s2)

/-- R132, D9: one full adder per index, chained from the last index (carry-in tied to 0) to index 0: the carry out of index
0, and the sum. -/
def rippleS : List Wire → List Wire → Build (Wire × List Wire)
  | a :: as, b :: bs => do
    let (k, os) ← rippleS as bs
    let (c, o) ← fullAdderS a b k
    pure (c, o :: os)
  | _, _ => pure (.tie false, [])

/-- R132, R136: the adder; the carry out of index 0 drives nothing. -/
def adderS (as bs : List Wire) : Build (List Wire) := do
  let (_, os) ← rippleS as bs
  pure os

/-- The wires of a constant bus: all tie-offs (R31, D16). -/
def tieBus {n : Nat} (b : Bus n) : List Wire := (bitsOf b).map Wire.tie

/-- R137: `adderN(a, ONE_N)`. -/
def incrementerS (n : Nat) (as : List Wire) : Build (List Wire) := adderS as (tieBus (Config.oneBus n))

/-! ## The ALU -/

/-- R151, R152, D10: `v1 = mux16(v, ZERO_16, z)`, then `mux16(v1, not16(v1), n)`. -/
def preconditionS (v : List Wire) (z n : Wire) : Build (List Wire) := do
  let v1 ← muxBusS v (tieBus (Config.zeroBus 16)) z
  let nv1 ← lift1S notS v1
  muxBusS v1 nv1 n

/-- R157: the eight lines.  The answer is `out`, then `zero`, then `negative` (a plain wire from index 0, R156). -/
def aluS (x y : List Wire) (zx nx zy ny f no : Wire) : Build (List Wire) := do
  let x2 ← preconditionS x zx nx
  let y2 ← preconditionS y zy ny
  let conj ← lift2S andS x2 y2
  let total ← adderS x2 y2
  let cand ← muxBusS conj total f
  let ncand ← lift1S notS cand
  let out ← muxBusS cand ncand no
  let any ← or16wayS out
  let zero ← notS any
  pure (out ++ [zero, out.headD (.tie false)])

/-! ## Every cell -/

/-- The wires of input Bits `off` to `off + n - 1` of the cell's input vector. -/
def inputWires (off n : Nat) : List Wire := (List.range n).map fun i => .input (off + i)

/-- The structure of a cell over its input vector (R65): the wires of its output Bits, in port order, index 0 first. -/
def structureOf (order : WideDemuxOrder) (c : Cell) : Build (List Wire) :=
  match c with
  | .nandGate => do pure [← nandS (.input 0) (.input 1)]
  | .notGate => do pure [← notS (.input 0)]
  | .andGate => do pure [← andS (.input 0) (.input 1)]
  | .orGate => do pure [← orS (.input 0) (.input 1)]
  | .xorGate => do pure [← xorS (.input 0) (.input 1)]
  | .muxBit => do pure [← muxS (.input 0) (.input 1) (.input 2)]
  | .demuxBit => do
    let (o0, o1) ← demuxS (.input 0) (.input 1)
    pure [o0, o1]
  | .not4 => lift1S notS (inputWires 0 4)
  | .not8 => lift1S notS (inputWires 0 8)
  | .not16 => lift1S notS (inputWires 0 16)
  | .and4 => lift2S andS (inputWires 0 4) (inputWires 4 4)
  | .and8 => lift2S andS (inputWires 0 8) (inputWires 8 8)
  | .and16 => lift2S andS (inputWires 0 16) (inputWires 16 16)
  | .or4 => lift2S orS (inputWires 0 4) (inputWires 4 4)
  | .or8 => lift2S orS (inputWires 0 8) (inputWires 8 8)
  | .or16 => lift2S orS (inputWires 0 16) (inputWires 16 16)
  | .xor4 => lift2S xorS (inputWires 0 4) (inputWires 4 4)
  | .xor8 => lift2S xorS (inputWires 0 8) (inputWires 8 8)
  | .xor16 => lift2S xorS (inputWires 0 16) (inputWires 16 16)
  | .mux4 => muxBusS (inputWires 0 4) (inputWires 4 4) (.input 8)
  | .mux8 => muxBusS (inputWires 0 8) (inputWires 8 8) (.input 16)
  | .mux16 => muxBusS (inputWires 0 16) (inputWires 16 16) (.input 32)
  | .or8way => do pure [← tree8S orS (inputWires 0 8)]
  | .and8way => do pure [← tree8S andS (inputWires 0 8)]
  | .or16way => do pure [← or16wayS (inputWires 0 16)]
  | .mux4way16 =>
    mux4way16S (inputWires 0 16) (inputWires 16 16) (inputWires 32 16) (inputWires 48 16) (.input 64) (.input 65)
  | .mux8way16 =>
    mux8way16S (inputWires 0 16) (inputWires 16 16) (inputWires 32 16) (inputWires 48 16) (inputWires 64 16)
      (inputWires 80 16) (inputWires 96 16) (inputWires 112 16) (.input 128) (.input 129) (.input 130)
  | .demux4way => do pure (orderLeaves order (← demux4wayTreeS (.input 0) (.input 1) (.input 2)))
  | .demux8way => do pure (orderLeaves order (← demux8wayTreeS (.input 0) (.input 1) (.input 2) (.input 3)))
  | .halfAdder => do
    let (c, t) ← halfAdderS (.input 0) (.input 1)
    pure [c, t]
  | .fullAdder => do
    let (c, t) ← fullAdderS (.input 0) (.input 1) (.input 2)
    pure [c, t]
  | .adder4 => adderS (inputWires 0 4) (inputWires 4 4)
  | .adder8 => adderS (inputWires 0 8) (inputWires 8 8)
  | .adder16 => adderS (inputWires 0 16) (inputWires 16 16)
  | .incrementer4 => incrementerS 4 (inputWires 0 4)
  | .incrementer8 => incrementerS 8 (inputWires 0 8)
  | .incrementer16 => incrementerS 16 (inputWires 0 16)
  | .alu =>
    aluS (inputWires 0 16) (inputWires 16 16) (.input 32) (.input 33) (.input 34) (.input 35) (.input 36) (.input 37)

/-- The network of a cell: every `nand` cell of its full expansion (R71). -/
def netOf (order : WideDemuxOrder) (c : Cell) : Net := ((structureOf order c).run Net.empty).2

/-- The settled output Bits of a cell's network, for an input vector. -/
def netOutputs (order : WideDemuxOrder) (c : Cell) (inp : List Bit) : List Bit :=
  ((structureOf order c).run Net.empty).1.map ((netOf order c).read inp)

/-- Table T296: the number of `nand` cells in the full expansion of each cell (spec/70_reset_and_hazards.md R296). -/
def nandCount : Cell → Nat
  | .nandGate => 1
  | .notGate => 1
  | .andGate => 2
  | .orGate => 5
  | .xorGate => 15
  | .muxBit => 27
  | .demuxBit => 5
  | .not4 => 4
  | .not8 => 8
  | .not16 => 16
  | .and4 => 8
  | .and8 => 16
  | .and16 => 32
  | .or4 => 20
  | .or8 => 40
  | .or16 => 80
  | .xor4 => 60
  | .xor8 => 120
  | .xor16 => 240
  | .mux4 => 108
  | .mux8 => 216
  | .mux16 => 432
  | .or8way => 35
  | .and8way => 14
  | .or16way => 75
  | .mux4way16 => 1296
  | .mux8way16 => 3024
  | .demux4way => 15
  | .demux8way => 35
  | .halfAdder => 17
  | .fullAdder => 39
  | .adder4 => 156
  | .adder8 => 312
  | .adder16 => 624
  | .incrementer4 => 156
  | .incrementer8 => 312
  | .incrementer16 => 624
  | .alu => 3372

end Sys2Proof.Machine
end

