-- ==== Sys2Proof/Safety.lean ====
section
/-! DEFINITION. What counts as a safe state: the outputs it shows are ones an evaluation can show.  That every request the host
has presented is well formed (spec/70_reset_and_hazards.md R297: one value of the right type on every input port) needs no
invariant: the type of a request says it. -/

namespace Sys2Proof.Machine

/-- Outputs an evaluation can show: the status outputs of the ALU are those of its result (spec/45_alu.md R155, R156, R162),
and at most one output of `demux` is 1 (spec/41_scalar_gates.md R85). -/
def Outputs.coherent : Outputs → Bool
  | .alu out zero negative => zero == (out == 0#16) && negative == out.getMsbD 0
  | .pair out0 out1 => !(out0 && out1)
  | _ => true

/-- The invariant of the machine. -/
def State.Inv (s : State) : Prop := ∀ o, s.outputs = some o → o.coherent = true

/-- The evaluation of an instruction, as outputs: what its meaning leaves on the output ports. -/
def outputsOf (i : Instr) (s : State) : Option Outputs :=
  match exec i s with
  | .next t => t.outputs
  | _ => none

end Sys2Proof.Machine
end

