-- ==== Sys2Proof/Certificates/Slice0/Obligations.lean ====
section
/-! DEFINITION. The statements for the provers.  Each docstring names the rule of spec/ it formalises; a part that rests on a
choice of the model's or on the spec's own decision says so. -/

namespace Sys2Proof.Machine

/-- The instruction ANSWERS A NEXT STATE: the state before, with these values on the output ports and nothing else changed. -/
def Gives (i : Instr) (s : State) (o : Outputs) : Prop := exec i s = .next { s with outputs := some o }

/-- A control word row (spec/30_encoding.md R59): its encoding is the operands and the six digits, it answers the next state in
which `out` is the closed form with its two status outputs, and it is the `alu` call with those six Bits. -/
def ControlWordGives (ctl : BitVec 6) (row : Bus 16 → Bus 16 → Instr) (form : Bus 16 → Bus 16 → Bus 16) : Prop :=
  ∀ (x y : Bus 16) (s : State),
    decode ⟨.aluctl, bitsOf x ++ bitsOf y ++ bitsOf ctl⟩ = .ok (row x y) ∧
    Gives (row x y) s (.alu (form x y) (form x y == 0#16) (bitAt (form x y) 0)) ∧
    exec (.alu x y (bitAt ctl 0) (bitAt ctl 1) (bitAt ctl 2) (bitAt ctl 3) (bitAt ctl 4) (bitAt ctl 5)) s = exec (row x y) s

/-- The output Bits of a wide demultiplexer, written in the order `significance`; the order `index` is the reverse
(spec/30_encoding.md R57, table T57). -/
def inOrder (order : WideDemuxOrder) (bits : List Bit) : List Bit :=
  match order with
  | .significance => bits
  | .index => bits.reverse

/-- The control words that compute the same function as another one, class by class (spec/30_encoding.md table T59;
spec/93_implementation_defined.md G1): 0, -1, `x`, `y`, `!x`, `!y`. -/
def controlWordClasses : List (List (BitVec 6)) :=
  [[0b101010#6, 0b001000#6, 0b011000#6, 0b100000#6, 0b100100#6, 0b101000#6, 0b101100#6, 0b101111#6, 0b111000#6,
    0b111011#6, 0b111101#6],
   [0b111010#6, 0b001001#6, 0b011001#6, 0b100001#6, 0b100101#6, 0b101001#6, 0b101011#6, 0b101101#6, 0b101110#6,
    0b111001#6, 0b111100#6],
   [0b001100#6, 0b001010#6, 0b011011#6, 0b011101#6],
   [0b110000#6, 0b100010#6, 0b100111#6, 0b110101#6],
   [0b001101#6, 0b001011#6, 0b011010#6, 0b011100#6],
   [0b110001#6, 0b100011#6, 0b100110#6, 0b110100#6]]

end Sys2Proof.Machine

open Sys2Proof Sys2Proof.Machine

/-! ## The machine: reset, step, frame -/

/-- Before its first evaluation the machine shows no output (R30) and has nothing presented and nothing to initialise
(R290, R291).  The parameter's value is the spec's default (its decision D5, log entry 1); how the absent reset is
rendered is the model's choice (log entries 2 and 3). -/
def Obligations.ResetHasNoOutputsAndNothingPending : Prop :=
  State.reset.outputs = none ∧ State.reset.requests = [] ∧ State.reset.wideDemuxOrder = .significance

/-- When the next request decodes to `i`, a step is `i` at the state without that request.  That one evaluation takes the values
the host presents and shows the cell's outputs is R8 and R297; that presented requests stand in a queue, that one step takes
one of them, the first, and that they are taken in that order are the model's choices (log entries 2 and 7, DESIGN
CHOICE). -/
def Obligations.StepRunsTheDecodedRequest : Prop :=
  ∀ (s : State) (r : Request) (rs : List Request) (i : Instr), s.requests = r :: rs → decode r.vector = .ok i →
    step s = exec i { s with requests := rs }

/-- With nothing presented a step changes nothing.  This is the model's choice (log entry 5): the hardware has no step of
its own (R298: nothing is pending after an evaluation). -/
def Obligations.StepWithNothingPresentedChangesNothing : Prop :=
  ∀ s : State, s.requests = [] → step s = .next s

/-- A written vector becomes a request exactly when it has the length of its form's input vector, and that request is the
vector, Bit for Bit; any other vector is refused as it is built, by name (R14, R61, R275).  No step refuses and no step
faults, in any state (R270, R278).  That the static refusal is the answer of InputVector.build, with that name, is the
model's rendering (log entry 11, DESIGN CHOICE). -/
def Obligations.AWrongWidthIsRefusedWhenBuiltAndNeverWhenItRuns : Prop :=
  (∀ v : InputVector, v.bits.length = v.form.width → ∃ r, v.build = .ok r ∧ r.vector = v) ∧
  (∀ v : InputVector, v.bits.length ≠ v.form.width → v.build = .error (.widthMismatch v.form v.bits.length)) ∧
  (∀ (s : State) (x : Refusal), step s ≠ .refused x) ∧
  ∀ (s : State) (f : Fault), step s ≠ .fault f

/-- Every instruction, at every operand and in every state, answers a next state: no cell fails, faults or is refused
(R3, R60, R158, R270). -/
def Obligations.EveryInstructionAnswersANextState : Prop :=
  ∀ (i : Instr) (s : State), ∃ o, Gives i s o

/-- The frame of every instruction: it changes the output ports and nothing else; the parameter and the evaluations still
presented stay as they are (R8: side-effect-free; R43). -/
def Obligations.EveryInstructionChangesOnlyTheOutputs : Prop :=
  ∀ (i : Instr) (s t : State), exec i s = .next t → t.wideDemuxOrder = s.wideDemuxOrder ∧ t.requests = s.requests

/-- The outputs are those of table T29: every instruction shows exactly the ports its cell has, with their types (R29). -/
def Obligations.OutputsHaveTheTypesOfThePortTable : Prop :=
  ∀ (i : Instr) (s t : State), exec i s = .next t →
    ∃ o, t.outputs = some o ∧ o.signals.map Signal.ty = (encode i).form.cell.outputTypes

/-- An evaluation does not depend on what was evaluated or presented before (R20, R46): two states with the same parameter
give the same outputs. -/
def Obligations.OutputsDoNotDependOnTheState : Prop :=
  ∀ (i : Instr) (s t : State), s.wideDemuxOrder = t.wideDemuxOrder → outputsOf i s = outputsOf i t

/-- The parameter changes the outputs of the two wide demultiplexers alone (spec/93_implementation_defined.md U5). -/
def Obligations.OnlyWideDemultiplexersDependOnTheOrder : Prop :=
  ∀ (i : Instr) (s t : State), (encode i).form.cell ≠ .demux4way → (encode i).form.cell ≠ .demux8way →
    outputsOf i s = outputsOf i t

/-- The invariant (outputs coherent: R155, R156, R85) holds at reset. -/
def Obligations.ResetMeetsTheInvariant : Prop := State.reset.Inv

/-- Every step keeps the invariant, and the parameter, from every state that meets it. -/
def Obligations.StepKeepsTheInvariant : Prop :=
  ∀ s t : State, s.Inv → step s = .next t → t.Inv ∧ t.wideDemuxOrder = s.wideDemuxOrder

/-- In every state a step answers a next state (R278: no fault, no stuck state, no refusal at run time).  With nothing
presented that state is the same one (the model's choice, log entry 5, DESIGN CHOICE); otherwise the request at the front is
gone and the others stay in their order (the queue is the model's choice, log entries 2 and 7, DESIGN CHOICE). -/
def Obligations.StepAlwaysAnswersANextState : Prop :=
  ∀ s : State, (s.requests = [] → step s = .next s) ∧
    ∀ (r : Request) (rs : List Request), s.requests = r :: rs → ∃ t, step s = .next t ∧ t.requests = rs

/-- Evaluations do not interact (R20, R46): after a whole queue of requests has been evaluated, the outputs are those of the
last request evaluated alone by an idle machine, whatever stood before it.  The queue, the outputs kept after a step, and
evaluations made one after the other are the model's choices (log entries 2, 3 and 7, DESIGN CHOICE). -/
def Obligations.ARunShowsTheLastEvaluationAlone : Prop :=
  ∀ (s : State) (rs : List Request) (r : Request) (i : Instr), s.requests = rs ++ [r] → decode r.vector = .ok i →
    ∃ t : State, Host.Core.run Sys2Proof.core (rs.length + 1) s = .next t ∧ t.requests = [] ∧
      t.wideDemuxOrder = s.wideDemuxOrder ∧ t.outputs = outputsOf i (State.idle s.wideDemuxOrder)

/-! ## Encoding -/

/-- Some words, written out from the spec's encodings: `nand(1,0)` is `10`; `and4(1100,1010)` is `11001010` (R65);
`mux(1,0,1)` is `101`, and read as a selector row `mux.sel_b` (R56); `demux4way` with `i` = 1 and `s` = `10` is `110`
(R57); `full_adder(1,0,1)` is `101`; and `alu` with `x` = 5, `y` = 3 and the digits `000010` is `ALU.ADD` (R54, R59). -/
def Obligations.WordsOfTheSpecDecode : Prop :=
  decode ⟨.call .nandGate, [true, false]⟩ = .ok (.nandGate true false) ∧
  decode ⟨.call .and4, [true, true, false, false, true, false, true, false]⟩ = .ok (.and4 0b1100#4 0b1010#4) ∧
  decode ⟨.call .muxBit, [true, false, true]⟩ = .ok (.muxBit true false true) ∧
  decode ⟨.sel .muxBit, [true, false, true]⟩ = .ok (.muxSelB true false) ∧
  decode ⟨.call .demux4way, [true, true, false]⟩ = .ok (.demux4way true 0b10#2) ∧
  decode ⟨.call .fullAdder, [true, false, true]⟩ = .ok (.fullAdder true false true) ∧
  decode ⟨.aluctl, [false, false, false, false, false, false, false, false, false, false, false, false, false, true, false, true,
    false, false, false, false, false, false, false, false, false, false, false, false, false, false, true, true,
    false, false, false, false, true, false]⟩ = .ok (.aluAdd 5#16 3#16)

/-- Decode and encode agree: for EVERY instruction, with every operand, decoding its encoding gives it back; and its request is
its encoding, at the length of its form's input vector, and presents it (R65). -/
def Obligations.DecodeOfEncodeIsTheInstruction : Prop :=
  ∀ i : Instr, decode (encode i) = .ok i ∧ i.request.vector = encode i ∧ i.request.instr = i

/-- Every vector and every request has one meaning: what decodes to `i` is the encoding of `i`, Bit for Bit, and a request is
the request of its instruction (R60, R65). -/
def Obligations.EncodeOfDecodeIsTheRequest : Prop :=
  (∀ (v : InputVector) (i : Instr), decode v = .ok i → encode i = v) ∧ ∀ r : Request, r.instr.request = r

/-- A written vector decodes exactly when it has the length of its cell's input vector: every value of every input is legal
(R60), and nothing is truncated or extended (R61); and a request, which has that length by its type (R14), always decodes. -/
def Obligations.EveryVectorOfTheRightWidthDecodes : Prop :=
  (∀ v : InputVector, (∃ i, decode v = .ok i) ↔ v.bits.length = v.form.width) ∧
  ∀ r : Request, r.vector.bits.length = r.form.width ∧ decode r.vector = .ok r.instr

/-- EVERY bare word of one byte is a control word (the model's reading, log entry 4, DESIGN CHOICE): its six low bits are
`zx nx zy ny f no`, and the row is the one of table T59; bits 6 and 7, to which the table's row gives no meaning, are
`y[15]` and `y[14]` (the model's choice, log entry 4), so that for a word of six Bits both operands are 0.  A bare word of
any length, also of one that no row of the table has (read as a control word: the model's choice, log entry 4), presented to
the machine, is what the next step runs; one that does not fit its vector presents nothing (log
entry 6, DESIGN CHOICE). -/
def Obligations.TableWordsAreControlWords : Prop :=
  (∀ w : Nat, w < 256 → ∀ ctl : BitVec 6, ctl = BitVec.ofNat 6 w → decodeTableWord 8 w =
    some (controlRow (bitAt ctl 0) (bitAt ctl 1) (bitAt ctl 2) (bitAt ctl 3) (bitAt ctl 4) (bitAt ctl 5) 0#16
      (BitVec.ofNat 16 (w / 64)))) ∧
  (∀ (s : State) (nbits w : Nat) (i : Instr), decodeTableWord nbits w = some i → step (s.withFetchWord nbits w) = exec i s) ∧
  ∀ (s : State) (nbits w : Nat), decodeTableWord nbits w = none → s.withFetchWord nbits w = s

/-- The readings of a bus (R11): `val(b)` is the sum of `b[i]·2^(N-1-i)`; `sval(b)` is `val(b)`, less `2^N` when `b[0]` is 1;
`busN(v)` is the one bus with `val(b) = v mod 2^N`; and the constants. -/
def Obligations.ReadingsOfABus : Prop :=
  ∀ n : Nat, 0 < n →
    (∀ b : Bus n, val b = ((List.range n).map fun i => (bitAt b i).toNat * 2 ^ (n - 1 - i)).sum) ∧
    (∀ b : Bus n, sval b = if bitAt b 0 then (val b : Int) - 2 ^ n else (val b : Int)) ∧
    (∀ (b : Bus n) (v : Int), (val b : Int) = v % 2 ^ n ↔ b = busN n v) ∧
    Config.zeroBus n = busN n 0 ∧ Config.oneBus n = busN n 1 ∧ Config.onesBus n = busN n (2 ^ n - 1) ∧
    (∀ i < n, bitAt (Config.zeroBus n) i = false) ∧ (∀ i < n, bitAt (Config.oneBus n) i = decide (i = n - 1)) ∧
    (∀ i < n, bitAt (Config.onesBus n) i = true) ∧ sval (Config.onesBus n) = -1

/-! ## The primitive and the scalar gates -/

/-- `nand` (R70): `out <- ¬(a ∧ b)`, its truth table, and its corner cases. -/
def Obligations.NandTruthFunction : Prop :=
  ∀ s : State, (∀ a b : Bit, Gives (.nandGate a b) s (.bit (!(a && b)))) ∧
    Gives (.nandGate false false) s (.bit true) ∧ Gives (.nandGate false true) s (.bit true) ∧
    Gives (.nandGate true false) s (.bit true) ∧ Gives (.nandGate true true) s (.bit false) ∧
    ∀ a : Bit, Gives (.nandGate a a) s (.bit (!a)) ∧ Gives (.nandGate a true) s (.bit (!a)) ∧
      Gives (.nandGate a false) s (.bit true)

/-- The laws of `nand` (R72): commutative, and not associative, by the rule's own instance; total and deterministic on its
four input pairs. -/
def Obligations.NandLaws : Prop :=
  (∀ a b : Bit, ∃! v : Bit, ∀ s : State, Gives (.nandGate a b) s (.bit v)) ∧
  (∀ (a b : Bit) (s : State), outputsOf (.nandGate a b) s = outputsOf (.nandGate b a) s) ∧
  nandOf (nandOf true true) false = true ∧ nandOf true (nandOf true false) = false ∧
  ¬ ∀ a b c : Bit, nandOf (nandOf a b) c = nandOf a (nandOf b c)

/-- `not`, `and`, `or`, `xor`, `mux` (R80 to R84): the truth functions, the compositions the source gives, and the corner
cases. -/
def Obligations.ScalarGateTruthFunctions : Prop :=
  ∀ s : State,
  (∀ a : Bit, Gives (.notGate a) s (.bit (!a)) ∧ notOf a = nandOf a a) ∧
  (∀ a b : Bit, Gives (.andGate a b) s (.bit (a && b)) ∧ andOf a b = notOf (nandOf a b)) ∧
  (∀ a b : Bit, Gives (.orGate a b) s (.bit (a || b)) ∧ orOf a b = notOf (andOf (notOf a) (notOf b))) ∧
  (∀ a b : Bit, Gives (.xorGate a b) s (.bit (a ^^ b)) ∧ ((xorOf a b = true) ↔ a ≠ b) ∧
    xorOf a b = notOf (andOf (orOf (notOf a) b) (orOf a (notOf b)))) ∧
  (∀ a b sel : Bit, Gives (.muxBit a b sel) s (.bit (if sel then b else a)) ∧
    muxOf a b sel = (!sel && a || sel && b) ∧
    muxOf a b sel = notOf (xorOf (orOf sel a) (orOf (notOf sel) b)) ∧ muxOf a a sel = a) ∧
  ∀ a : Bit, notOf (notOf a) = a ∧ andOf a a = a ∧ andOf a false = false ∧ andOf a true = a ∧ orOf a a = a ∧
    orOf a false = a ∧ orOf a true = true ∧ xorOf a a = false ∧ xorOf a false = a ∧ xorOf a true = !a

/-- `demux` (R85): it routes `i` to index 1 for `s` = 0 and to index 0 for `s` = 1, the other output is 0; its truth table, and
its corner cases: exactly one output is 1 iff `i` is 1, their OR is `i`, and read as a number with index 0 the more significant
they are `i · 2^val(s)`.  (The network the spec takes for it is its decision D4, NetworksComputeTheTruthFunctions.) -/
def Obligations.DemuxTruthFunction : Prop :=
  ∀ s : State,
  (∀ i sel : Bit, Gives (.demuxBit i sel) s (.pair (i && sel) (i && !sel)) ∧
    (demuxOf i sel).1.toNat + (demuxOf i sel).2.toNat = i.toNat ∧ orOf (demuxOf i sel).1 (demuxOf i sel).2 = i ∧
    2 * (demuxOf i sel).1.toNat + (demuxOf i sel).2.toNat = i.toNat * 2 ^ sel.toNat) ∧
  (∀ sel : Bit, Gives (.demuxBit false sel) s (.pair false false)) ∧
  Gives (.demuxBit true false) s (.pair false true) ∧ Gives (.demuxBit true true) s (.pair true false)

/-- The laws the source requires of the scalar cells (R86). -/
def Obligations.ScalarGateLaws : Prop :=
  ∀ s : State,
  (∀ x : Bit, outputsOf (.notGate (notOf x)) s = some (.bit x)) ∧
  (∀ a b : Bit, outputsOf (.andGate a b) s = outputsOf (.andGate b a) s ∧ outputsOf (.orGate a b) s = outputsOf (.orGate b a) s ∧
    outputsOf (.xorGate a b) s = outputsOf (.xorGate b a) s) ∧
  (∀ a b c : Bit, outputsOf (.andGate (andOf a b) c) s = outputsOf (.andGate a (andOf b c)) s ∧
    outputsOf (.orGate (orOf a b) c) s = outputsOf (.orGate a (orOf b c)) s ∧
    outputsOf (.xorGate (xorOf a b) c) s = outputsOf (.xorGate a (xorOf b c)) s) ∧
  ∀ a b : Bit, outputsOf (.muxBit a b false) s = some (.bit a) ∧ outputsOf (.muxBit a b true) s = some (.bit b)

/-! ## Bus gates -/

/-- The lifting law (R90): each of the fifteen bus cells is its scalar gate at every index, index-preserving, and `muxN` uses
one selector Bit for the whole bus. -/
def Obligations.BusGatesActIndexByIndex : Prop :=
  ∀ s : State,
  (∀ a : Bus 4, ∃ out, Gives (.not4 a) s (.bus4 out) ∧ ∀ i < 4, bitAt out i = notOf (bitAt a i)) ∧
  (∀ a : Bus 8, ∃ out, Gives (.not8 a) s (.bus8 out) ∧ ∀ i < 8, bitAt out i = notOf (bitAt a i)) ∧
  (∀ a : Bus 16, ∃ out, Gives (.not16 a) s (.bus16 out) ∧ ∀ i < 16, bitAt out i = notOf (bitAt a i)) ∧
  (∀ a b : Bus 4, ∃ out, Gives (.and4 a b) s (.bus4 out) ∧ ∀ i < 4, bitAt out i = andOf (bitAt a i) (bitAt b i)) ∧
  (∀ a b : Bus 8, ∃ out, Gives (.and8 a b) s (.bus8 out) ∧ ∀ i < 8, bitAt out i = andOf (bitAt a i) (bitAt b i)) ∧
  (∀ a b : Bus 16, ∃ out, Gives (.and16 a b) s (.bus16 out) ∧ ∀ i < 16, bitAt out i = andOf (bitAt a i) (bitAt b i)) ∧
  (∀ a b : Bus 4, ∃ out, Gives (.or4 a b) s (.bus4 out) ∧ ∀ i < 4, bitAt out i = orOf (bitAt a i) (bitAt b i)) ∧
  (∀ a b : Bus 8, ∃ out, Gives (.or8 a b) s (.bus8 out) ∧ ∀ i < 8, bitAt out i = orOf (bitAt a i) (bitAt b i)) ∧
  (∀ a b : Bus 16, ∃ out, Gives (.or16 a b) s (.bus16 out) ∧ ∀ i < 16, bitAt out i = orOf (bitAt a i) (bitAt b i)) ∧
  (∀ a b : Bus 4, ∃ out, Gives (.xor4 a b) s (.bus4 out) ∧ ∀ i < 4, bitAt out i = xorOf (bitAt a i) (bitAt b i)) ∧
  (∀ a b : Bus 8, ∃ out, Gives (.xor8 a b) s (.bus8 out) ∧ ∀ i < 8, bitAt out i = xorOf (bitAt a i) (bitAt b i)) ∧
  (∀ a b : Bus 16, ∃ out, Gives (.xor16 a b) s (.bus16 out) ∧ ∀ i < 16, bitAt out i = xorOf (bitAt a i) (bitAt b i)) ∧
  (∀ (a b : Bus 4) (sel : Bit), ∃ out, Gives (.mux4 a b sel) s (.bus4 out) ∧ (out = if sel then b else a) ∧
    ∀ i < 4, bitAt out i = muxOf (bitAt a i) (bitAt b i) sel) ∧
  (∀ (a b : Bus 8) (sel : Bit), ∃ out, Gives (.mux8 a b sel) s (.bus8 out) ∧ (out = if sel then b else a) ∧
    ∀ i < 8, bitAt out i = muxOf (bitAt a i) (bitAt b i) sel) ∧
  (∀ (a b : Bus 16) (sel : Bit), ∃ out, Gives (.mux16 a b sel) s (.bus16 out) ∧ (out = if sel then b else a) ∧
    ∀ i < 16, bitAt out i = muxOf (bitAt a i) (bitAt b i) sel)

/-- The corner cases and integer readings of the bus cells (R91 to R105), for every width. -/
def Obligations.BusGateCornerCases : Prop :=
  ∀ (n : Nat) (a b c : Bus n),
    notBusOf (notBusOf a) = a ∧ notBusOf (Config.zeroBus n) = Config.onesBus n ∧
    notBusOf (Config.onesBus n) = Config.zeroBus n ∧ val (notBusOf a) = 2 ^ n - 1 - val a ∧
    (0 < n → sval (notBusOf a) = -sval a - 1) ∧
    andBusOf a a = a ∧ andBusOf a (Config.zeroBus n) = Config.zeroBus n ∧ andBusOf a (Config.onesBus n) = a ∧
    orBusOf a a = a ∧ orBusOf a (Config.zeroBus n) = a ∧ orBusOf a (Config.onesBus n) = Config.onesBus n ∧
    xorBusOf a a = Config.zeroBus n ∧ xorBusOf a (Config.zeroBus n) = a ∧ xorBusOf a (Config.onesBus n) = notBusOf a ∧
    andBusOf a b = andBusOf b a ∧ orBusOf a b = orBusOf b a ∧ xorBusOf a b = xorBusOf b a ∧
    andBusOf (andBusOf a b) c = andBusOf a (andBusOf b c) ∧ orBusOf (orBusOf a b) c = orBusOf a (orBusOf b c) ∧
    xorBusOf (xorBusOf a b) c = xorBusOf a (xorBusOf b c) ∧
    ∀ sel : Bit, muxBusOf a a sel = a

/-! ## Wide selectors -/

/-- The reductions (R110, R111, R116): `or8way` and `or16way` are 1 exactly when at least one Bit is 1, which is `val(a) ≠ 0`;
`and8way` exactly when all eight are, which is `val(a) = 255`.  The last clause, `or16way` as the OR of two `or8way`, is no
rule of the source's: it is the spec's decision D11 (log entry 8).  (The trees of the other two are its decision D7,
NetworksComputeTheTruthFunctions.) -/
def Obligations.ReductionsOfABus : Prop :=
  ∀ s : State,
  (∀ a : Bus 8, Gives (.or8way a) s (.bit (decide (val a ≠ 0))) ∧
    or8wayOf a = (bitAt a 0 || bitAt a 1 || bitAt a 2 || bitAt a 3 || bitAt a 4 || bitAt a 5 || bitAt a 6 || bitAt a 7)) ∧
  (∀ a : Bus 8, Gives (.and8way a) s (.bit (decide (val a = 255))) ∧
    and8wayOf a = (bitAt a 0 && bitAt a 1 && bitAt a 2 && bitAt a 3 && bitAt a 4 && bitAt a 5 && bitAt a 6 && bitAt a 7)) ∧
  (∀ a : Bus 16, Gives (.or16way a) s (.bit (decide (val a ≠ 0))) ∧
    or16wayOf a = orOf (or8wayOf (busOfBits 8 fun i => bitAt a i)) (or8wayOf (busOfBits 8 fun i => bitAt a (8 + i))))

/-- The wide multiplexers (R112, R113): the output is the data input whose position counted from 0 is `val(s)`; each is also
the tree of `mux16` the spec takes.  The tree is the spec's decision D8, and the six middle rows of `mux8way16` its decision
D20. -/
def Obligations.WideMultiplexersSelectByPosition : Prop :=
  ∀ s : State,
  (∀ (a b c d : Bus 16) (sel : Selector 2),
    Gives (.mux4way16 a b c d sel) s (.bus16 ([a, b, c, d].getD (2 * (bitAt sel 0).toNat + (bitAt sel 1).toNat) 0#16)) ∧
    val sel = 2 * (bitAt sel 0).toNat + (bitAt sel 1).toNat ∧
    mux4way16Of a b c d sel =
      muxBusOf (muxBusOf a b (bitAt sel 1)) (muxBusOf c d (bitAt sel 1)) (bitAt sel 0)) ∧
  (∀ (a b c d e f g h : Bus 16) (sel : Selector 3),
    Gives (.mux8way16 a b c d e f g h sel) s (.bus16 ([a, b, c, d, e, f, g, h].getD
      (4 * (bitAt sel 0).toNat + 2 * (bitAt sel 1).toNat + (bitAt sel 2).toNat) 0#16)) ∧
    val sel = 4 * (bitAt sel 0).toNat + 2 * (bitAt sel 1).toNat + (bitAt sel 2).toNat ∧
    mux8way16Of a b c d e f g h sel =
      muxBusOf
        (muxBusOf (muxBusOf a b (bitAt sel 2)) (muxBusOf c d (bitAt sel 2)) (bitAt sel 1))
        (muxBusOf (muxBusOf e f (bitAt sel 2)) (muxBusOf g h (bitAt sel 2)) (bitAt sel 1)) (bitAt sel 0))

/-- `demux4way` (R114) under both values of `WIDE_DEMUX_ORDER` (the parameter is the spec's decision D5), the facts that hold
under both, and the tree of three `demux` cells (its decision D6). -/
def Obligations.Demux4wayDrivesOneOutput : Prop :=
  ∀ (s : State) (i : Bit) (sel : Selector 2),
    ∃ out : Bus 4, Gives (.demux4way i sel) s (.bus4 out) ∧
      (s.wideDemuxOrder = .significance →
        (∀ j < 4, bitAt out j = (i && decide (val sel = 3 - j))) ∧ val out = i.toNat * 2 ^ val sel) ∧
      (s.wideDemuxOrder = .index → ∀ j < 4, bitAt out j = (i && decide (val sel = j))) ∧
      ((bitsOf out).map Bool.toNat).sum = i.toNat ∧ anyBit out = i ∧
      (∀ (sel' : Selector 2) (j : Nat), sel ≠ sel' → bitAt out j = true →
        bitAt (demux4wayOf s.wideDemuxOrder i sel') j = false) ∧
      bitsOf out = inOrder s.wideDemuxOrder
        [(demuxOf (demuxOf i (bitAt sel 0)).1 (bitAt sel 1)).1, (demuxOf (demuxOf i (bitAt sel 0)).1 (bitAt sel 1)).2,
         (demuxOf (demuxOf i (bitAt sel 0)).2 (bitAt sel 1)).1, (demuxOf (demuxOf i (bitAt sel 0)).2 (bitAt sel 1)).2]

/-- `demux8way` (R115) under both values of `WIDE_DEMUX_ORDER` (the parameter is the spec's decision D5), the facts that hold
under both, and its tree: one `demux` and two `demux4way` in the default order (its decision D6). -/
def Obligations.Demux8wayDrivesOneOutput : Prop :=
  ∀ (s : State) (i : Bit) (sel : Selector 3),
    ∃ out : Bus 8, Gives (.demux8way i sel) s (.bus8 out) ∧
      (s.wideDemuxOrder = .significance →
        (∀ j < 8, bitAt out j = (i && decide (val sel = 7 - j))) ∧ val out = i.toNat * 2 ^ val sel) ∧
      (s.wideDemuxOrder = .index → ∀ j < 8, bitAt out j = (i && decide (val sel = j))) ∧
      ((bitsOf out).map Bool.toNat).sum = i.toNat ∧ or8wayOf out = i ∧
      bitsOf out = inOrder s.wideDemuxOrder
        (bitsOf (demux4wayOf .significance (demuxOf i (bitAt sel 0)).1 (ofBits 2 [bitAt sel 1, bitAt sel 2])) ++
         bitsOf (demux4wayOf .significance (demuxOf i (bitAt sel 0)).2 (ofBits 2 [bitAt sel 1, bitAt sel 2])))

/-- The selector rows of the multiplexers (R56): each answers the data input its name says (the rows themselves are the spec's
bookkeeping, D15, and the six middle rows of `mux8way16` its decision D20). -/
def Obligations.MultiplexerRowsSelectTheirInput : Prop :=
  ∀ s : State,
  (∀ a b : Bit, Gives (.muxSelA a b) s (.bit a)) ∧
  (∀ a b : Bit, Gives (.muxSelB a b) s (.bit b)) ∧
  (∀ a b : Bus 4, Gives (.mux4SelA a b) s (.bus4 a)) ∧
  (∀ a b : Bus 4, Gives (.mux4SelB a b) s (.bus4 b)) ∧
  (∀ a b : Bus 8, Gives (.mux8SelA a b) s (.bus8 a)) ∧
  (∀ a b : Bus 8, Gives (.mux8SelB a b) s (.bus8 b)) ∧
  (∀ a b : Bus 16, Gives (.mux16SelA a b) s (.bus16 a)) ∧
  (∀ a b : Bus 16, Gives (.mux16SelB a b) s (.bus16 b)) ∧
  (∀ a b c d : Bus 16, Gives (.mux4way16SelA a b c d) s (.bus16 a)) ∧
  (∀ a b c d : Bus 16, Gives (.mux4way16SelB a b c d) s (.bus16 b)) ∧
  (∀ a b c d : Bus 16, Gives (.mux4way16SelC a b c d) s (.bus16 c)) ∧
  (∀ a b c d : Bus 16, Gives (.mux4way16SelD a b c d) s (.bus16 d)) ∧
  (∀ a b c d e f g h : Bus 16, Gives (.mux8way16SelA a b c d e f g h) s (.bus16 a)) ∧
  (∀ a b c d e f g h : Bus 16, Gives (.mux8way16SelB a b c d e f g h) s (.bus16 b)) ∧
  (∀ a b c d e f g h : Bus 16, Gives (.mux8way16SelC a b c d e f g h) s (.bus16 c)) ∧
  (∀ a b c d e f g h : Bus 16, Gives (.mux8way16SelD a b c d e f g h) s (.bus16 d)) ∧
  (∀ a b c d e f g h : Bus 16, Gives (.mux8way16SelE a b c d e f g h) s (.bus16 e)) ∧
  (∀ a b c d e f g h : Bus 16, Gives (.mux8way16SelF a b c d e f g h) s (.bus16 f)) ∧
  (∀ a b c d e f g h : Bus 16, Gives (.mux8way16SelG a b c d e f g h) s (.bus16 g)) ∧
  (∀ a b c d e f g h : Bus 16, Gives (.mux8way16SelH a b c d e f g h) s (.bus16 h))

/-- The selector rows of the demultiplexers (R57, table T57), under both values of the parameter (the spec's decision D5): each
drives the output its row says, with the data input there and 0 on every other output. -/
def Obligations.DemultiplexerRowsDriveTheirOutput : Prop :=
  ∀ s : State,
  (∀ i : Bit, Gives (.demuxSelOut1 i) s (.pair false i)) ∧
  (∀ i : Bit, Gives (.demuxSelOut0 i) s (.pair i false)) ∧
  (∀ i : Bit, Gives (.demux4waySelV0 i) s (.bus4 (ofBits 4 (inOrder s.wideDemuxOrder [false, false, false, i])))) ∧
  (∀ i : Bit, Gives (.demux4waySelV1 i) s (.bus4 (ofBits 4 (inOrder s.wideDemuxOrder [false, false, i, false])))) ∧
  (∀ i : Bit, Gives (.demux4waySelV2 i) s (.bus4 (ofBits 4 (inOrder s.wideDemuxOrder [false, i, false, false])))) ∧
  (∀ i : Bit, Gives (.demux4waySelV3 i) s (.bus4 (ofBits 4 (inOrder s.wideDemuxOrder [i, false, false, false])))) ∧
  (∀ i : Bit, Gives (.demux8waySelV0 i) s (.bus8 (ofBits 8 (inOrder s.wideDemuxOrder [false, false, false, false, false, false, false, i])))) ∧
  (∀ i : Bit, Gives (.demux8waySelV1 i) s (.bus8 (ofBits 8 (inOrder s.wideDemuxOrder [false, false, false, false, false, false, i, false])))) ∧
  (∀ i : Bit, Gives (.demux8waySelV2 i) s (.bus8 (ofBits 8 (inOrder s.wideDemuxOrder [false, false, false, false, false, i, false, false])))) ∧
  (∀ i : Bit, Gives (.demux8waySelV3 i) s (.bus8 (ofBits 8 (inOrder s.wideDemuxOrder [false, false, false, false, i, false, false, false])))) ∧
  (∀ i : Bit, Gives (.demux8waySelV4 i) s (.bus8 (ofBits 8 (inOrder s.wideDemuxOrder [false, false, false, i, false, false, false, false])))) ∧
  (∀ i : Bit, Gives (.demux8waySelV5 i) s (.bus8 (ofBits 8 (inOrder s.wideDemuxOrder [false, false, i, false, false, false, false, false])))) ∧
  (∀ i : Bit, Gives (.demux8waySelV6 i) s (.bus8 (ofBits 8 (inOrder s.wideDemuxOrder [false, i, false, false, false, false, false, false])))) ∧
  (∀ i : Bit, Gives (.demux8waySelV7 i) s (.bus8 (ofBits 8 (inOrder s.wideDemuxOrder [i, false, false, false, false, false, false, false]))))

/-! ## Arithmetic -/

/-- The half adder (R130) and the full adder (R131): arithmetic reading, truth function, and the composition of the full
adder out of half adders, whose two carries are never both 1. -/
def Obligations.BitAddersAdd : Prop :=
  ∀ s : State,
  (∀ a b : Bit, Gives (.halfAdder a b) s (.adder (a && b) (a ^^ b)) ∧
    halfAdderOf a b = (andOf a b, xorOf a b) ∧
    2 * (halfAdderOf a b).1.toNat + (halfAdderOf a b).2.toNat = a.toNat + b.toNat ∧
    ((halfAdderOf a b).1 && (halfAdderOf a b).2) = false) ∧
  (∀ a b c : Bit, Gives (.fullAdder a b c) s (.adder (a && b || a && c || b && c) (a ^^ b ^^ c)) ∧
    2 * (fullAdderOf a b c).1.toNat + (fullAdderOf a b c).2.toNat = a.toNat + b.toNat + c.toNat ∧
    fullAdderOf a b c =
      (orOf (halfAdderOf a b).1 (halfAdderOf (halfAdderOf a b).2 c).1, (halfAdderOf (halfAdderOf a b).2 c).2) ∧
    ((halfAdderOf a b).1 && (halfAdderOf (halfAdderOf a b).2 c).1) = false ∧
    fullAdderOf a b c = fullAdderOf b a c ∧ fullAdderOf a b c = fullAdderOf a c b ∧
    fullAdderOf a b false = halfAdderOf a b)

/-- The adders (R132 to R135): `val(out) = (val(a) + val(b)) mod 2^N`, and `out` is the one output port (R136). -/
def Obligations.AddersAddModuloTheWidth : Prop :=
  ∀ s : State,
  (∀ a b : Bus 4, ∃ out, Gives (.adder4 a b) s (.bus4 out) ∧ val out = (val a + val b) % 2 ^ 4) ∧
  (∀ a b : Bus 8, ∃ out, Gives (.adder8 a b) s (.bus8 out) ∧ val out = (val a + val b) % 2 ^ 8) ∧
  (∀ a b : Bus 16, ∃ out, Gives (.adder16 a b) s (.bus16 out) ∧ val out = (val a + val b) % 2 ^ 16)

/-- The incrementers (R137): `val(out) = (val(a) + 1) mod 2^N`, and each is the adder with `ONE_N`. -/
def Obligations.IncrementersAddOne : Prop :=
  ∀ s : State,
  (∀ a : Bus 4, ∃ out, Gives (.incrementer4 a) s (.bus4 out) ∧ val out = (val a + 1) % 2 ^ 4 ∧
    exec (.incrementer4 a) s = exec (.adder4 a (Config.oneBus 4)) s) ∧
  (∀ a : Bus 8, ∃ out, Gives (.incrementer8 a) s (.bus8 out) ∧ val out = (val a + 1) % 2 ^ 8 ∧
    exec (.incrementer8 a) s = exec (.adder8 a (Config.oneBus 8)) s) ∧
  (∀ a : Bus 16, ∃ out, Gives (.incrementer16 a) s (.bus16 out) ∧ val out = (val a + 1) % 2 ^ 16 ∧
    exec (.incrementer16 a) s = exec (.adder16 a (Config.oneBus 16)) s)

/-- The laws of integer addition (R141), for every width: both readings wrap modulo `2^N`, addition is commutative and
associative with identity `ZERO_N`, `a + !a` is all ones, `!a + 1` is the negation, and `2^(N-1)` and 0 are their own. -/
def Obligations.AdditionLaws : Prop :=
  ∀ (n : Nat) (a b c : Bus n), 0 < n →
    val (adderOf a b) = (val a + val b) % 2 ^ n ∧
    (sval (adderOf a b) - (sval a + sval b)) % 2 ^ n = 0 ∧
    -2 ^ (n - 1) ≤ sval (adderOf a b) ∧ sval (adderOf a b) < 2 ^ (n - 1) ∧
    adderOf a b = adderOf b a ∧ adderOf (adderOf a b) c = adderOf a (adderOf b c) ∧
    adderOf a (Config.zeroBus n) = a ∧ adderOf a (notBusOf a) = Config.onesBus n ∧
    adderOf (notBusOf a) (Config.oneBus n) = busN n (-sval a) ∧
    adderOf (notBusOf (Config.zeroBus n)) (Config.oneBus n) = Config.zeroBus n ∧
    adderOf (notBusOf (busN n (2 ^ (n - 1)))) (Config.oneBus n) = busN n (2 ^ (n - 1))

/-- The ripple property (R142, with the source's numeral corrected by spec/90_conflicts.md C2): `k` increments of `ZERO_N`
give `busN(k mod 2^N)`. -/
def Obligations.RippleProperty : Prop :=
  (∀ n k : Nat, incrementerOf^[k] (Config.zeroBus n) = busN n ((k % 2 ^ n : Nat) : Int)) ∧
  incrementerOf^[15] (Config.zeroBus 4) = Config.onesBus 4 ∧ incrementerOf^[16] (Config.zeroBus 4) = Config.zeroBus 4 ∧
  incrementerOf^[65535] (Config.zeroBus 16) = Config.onesBus 16 ∧
  incrementerOf^[65536] (Config.zeroBus 16) = Config.zeroBus 16

/-! ## The ALU -/

/-- Preconditioning (R151, R152): each operand is zeroed first and THEN complemented, `x` by `zx`, `nx` and `y` by `zy`, `ny`:
the four cases, and the composition of `mux16` and `not16`.  That the zeroing is a `mux16` is the spec's decision D10 (log
entry 8).  The last clause, that the ALU computes its result from the two preconditioned operands, is an inference from R151
to R157, not a sentence of the spec. -/
def Obligations.OperandsAreZeroedThenComplemented : Prop :=
  (∀ v : Bus 16,
    preconditionOf v false false = v ∧ preconditionOf v false true = notBusOf v ∧
    preconditionOf v true false = 0x0000#16 ∧ preconditionOf v true true = 0xFFFF#16 ∧
    (sval (notBusOf v) = -sval v - 1) ∧
    ∀ z n : Bit, preconditionOf v z n =
      muxBusOf (muxBusOf v (Config.zeroBus 16) z) (notBusOf (muxBusOf v (Config.zeroBus 16) z)) n) ∧
  ∀ (x y : Bus 16) (zx nx zy ny f no : Bit) (s : State),
    exec (.alu x y zx nx zy ny f no) s =
      exec (.alu (preconditionOf x zx nx) (preconditionOf y zy ny) false false false false f no) s

/-- The whole cell (R157, with the function select R153 and the output complement R154): `alu` answers the next state in which `out` is what the eight lines give,
`f` = 1 adding and `f` = 0 taking the AND (spec/90_conflicts.md C1), and `zero`, `negative` are computed from `out`. -/
def Obligations.AluComputesTheEightLines : Prop :=
  ∀ (x y : Bus 16) (zx nx zy ny f no : Bit) (s : State),
    let x1 := muxBusOf x (Config.zeroBus 16) zx
    let x2 := muxBusOf x1 (notBusOf x1) nx
    let y1 := muxBusOf y (Config.zeroBus 16) zy
    let y2 := muxBusOf y1 (notBusOf y1) ny
    let cand := muxBusOf (andBusOf x2 y2) (adderOf x2 y2) f
    let out := muxBusOf cand (notBusOf cand) no
    Gives (.alu x y zx nx zy ny f no) s (.alu out (notOf (or16wayOf out)) (bitAt out 0))

/-- `zero` (R155): it is `not(or16way(out))`, and it is 1 exactly when `out` is 0x0000. -/
def Obligations.ZeroOutputMeansResultZero : Prop :=
  ∀ (x y : Bus 16) (zx nx zy ny f no : Bit) (s : State),
    ∃ out zero negative, Gives (.alu x y zx nx zy ny f no) s (.alu out zero negative) ∧
      zero = notOf (or16wayOf out) ∧ (zero = true ↔ out = 0x0000#16)

/-- `negative` (R156): it is `out[0]`; it is 1 exactly when `sval(out) < 0`, exactly when `val(out) ≥ 0x8000`; and it is the
sign of the wrapped result, by the rule's own example. -/
def Obligations.NegativeOutputIsTheSignBit : Prop :=
  (∀ (x y : Bus 16) (zx nx zy ny f no : Bit) (s : State),
    ∃ out zero negative, Gives (.alu x y zx nx zy ny f no) s (.alu out zero negative) ∧
      negative = bitAt out 0 ∧ (negative = true ↔ sval out < 0) ∧ (negative = true ↔ val out ≥ 0x8000)) ∧
  ∀ s : State, Gives (.alu 0x7FFF#16 0x0001#16 false false false false true false) s (.alu 0x8000#16 false true)

/-- The status outcomes (R162): never both 1; the three pairs; after `x - y` (word `010011`) `zero` is equality, and
`negative` is the signed comparison exactly when the exact difference fits in 16 signed Bits, with the rule's
counterexample. -/
def Obligations.StatusOutcomes : Prop :=
  (∀ (x y : Bus 16) (zx nx zy ny f no : Bit) (s : State),
    ∃ out zero negative, Gives (.alu x y zx nx zy ny f no) s (.alu out zero negative) ∧ (zero && negative) = false ∧
      ((zero = true ∧ negative = false) ↔ out = 0x0000#16) ∧ ((zero = false ∧ negative = true) ↔ 0x8000 ≤ val out) ∧
      ((zero = false ∧ negative = false) ↔ 0x0001 ≤ val out ∧ val out ≤ 0x7FFF)) ∧
  (∀ (x y : Bus 16) (s : State),
    ∃ zero negative, Gives (.alu x y false true false false true true) s (.alu (x - y) zero negative) ∧
      (zero = true ↔ x = y) ∧
      (((negative = true) ↔ sval x < sval y) ↔ (-32768 ≤ sval x - sval y ∧ sval x - sval y ≤ 32767))) ∧
  ∀ s : State, Gives (.alu 0x8000#16 0x0001#16 false true false false true true) s (.alu 0x7FFF#16 false false)

/-- The status outputs say nothing else (R160): they are functions of `out` alone, whatever the inputs were. -/
def Obligations.StatusOutputsDependOnTheResultAlone : Prop :=
  ∀ (x y x' y' : Bus 16) (zx nx zy ny f no zx' nx' zy' ny' f' no' : Bit) (s s' : State) (out : Bus 16)
    (zero negative zero' negative' : Bit),
    Gives (.alu x y zx nx zy ny f no) s (.alu out zero negative) →
    Gives (.alu x' y' zx' nx' zy' ny' f' no') s' (.alu out zero' negative') → zero = zero' ∧ negative = negative'

/-- The identities the closed forms are derived from (R161 (a) to (e)). -/
def Obligations.IdentitiesOfComplementAndAddition : Prop :=
  ∀ u v : Bus 16,
    notBusOf v = -v - 1#16 ∧ -v = adderOf (notBusOf v) 1#16 ∧ andBusOf v 0xFFFF#16 = v ∧ andBusOf v 0x0000#16 = 0x0000#16 ∧
    adderOf v 0xFFFF#16 = v - 1#16 ∧ notBusOf (notBusOf v) = v ∧
    notBusOf (andBusOf (notBusOf u) (notBusOf v)) = u ||| v

/-- The repertoire, first half (R170 to R178): 0, 1, -1, `x`, `y`, `!x`, `!y`, `-x`, `-y`.  (Which word stands for which operation
is the spec's decision D14; that the word computes it follows from R151 to R156.) -/
def Obligations.RepertoireConstantsAndComplements : Prop :=
  ControlWordGives 0b101010#6 .aluZero (fun _ _ => 0#16) ∧
  ControlWordGives 0b111111#6 .aluOne (fun _ _ => 1#16) ∧
  ControlWordGives 0b111010#6 .aluNeg1 (fun _ _ => -1#16) ∧
  ControlWordGives 0b001100#6 .aluX (fun x _ => x) ∧
  ControlWordGives 0b110000#6 .aluY (fun _ y => y) ∧
  ControlWordGives 0b001101#6 .aluNotX (fun x _ => ~~~x) ∧
  ControlWordGives 0b110001#6 .aluNotY (fun _ y => ~~~y) ∧
  ControlWordGives 0b001111#6 .aluNegX (fun x _ => -x) ∧
  ControlWordGives 0b110011#6 .aluNegY (fun _ y => -y)

/-- The repertoire, second half (R179 to R187): `x+1`, `y+1`, `x-1`, `y-1`, `x+y`, `x-y`, `y-x`, `x&y`, `x|y`.  (Which word stands
for which operation is the spec's decision D14; that the word computes it follows from R151 to R156.) -/
def Obligations.RepertoireArithmeticAndLogic : Prop :=
  ControlWordGives 0b011111#6 .aluIncX (fun x _ => x + 1#16) ∧
  ControlWordGives 0b110111#6 .aluIncY (fun _ y => y + 1#16) ∧
  ControlWordGives 0b001110#6 .aluDecX (fun x _ => x - 1#16) ∧
  ControlWordGives 0b110010#6 .aluDecY (fun _ y => y - 1#16) ∧
  ControlWordGives 0b000010#6 .aluAdd (fun x y => x + y) ∧
  ControlWordGives 0b010011#6 .aluSubXY (fun x y => x - y) ∧
  ControlWordGives 0b000111#6 .aluSubYX (fun x y => y - x) ∧
  ControlWordGives 0b000000#6 .aluAnd (fun x y => x &&& y) ∧
  ControlWordGives 0b010101#6 .aluOr (fun x y => x ||| y)

/-- The other control words that give the constant 0 (file 47). -/
def Obligations.OtherControlWordsGivingZero : Prop :=
  ControlWordGives 0b001000#6 .aluW001000 (fun _ _ => 0#16) ∧
  ControlWordGives 0b011000#6 .aluW011000 (fun _ _ => 0#16) ∧
  ControlWordGives 0b100000#6 .aluW100000 (fun _ _ => 0#16) ∧
  ControlWordGives 0b100100#6 .aluW100100 (fun _ _ => 0#16) ∧
  ControlWordGives 0b101000#6 .aluW101000 (fun _ _ => 0#16) ∧
  ControlWordGives 0b101100#6 .aluW101100 (fun _ _ => 0#16) ∧
  ControlWordGives 0b101111#6 .aluW101111 (fun _ _ => 0#16) ∧
  ControlWordGives 0b111000#6 .aluW111000 (fun _ _ => 0#16) ∧
  ControlWordGives 0b111011#6 .aluW111011 (fun _ _ => 0#16) ∧
  ControlWordGives 0b111101#6 .aluW111101 (fun _ _ => 0#16)

/-- The other control words that give the constant -1 (file 47). -/
def Obligations.OtherControlWordsGivingMinusOne : Prop :=
  ControlWordGives 0b001001#6 .aluW001001 (fun _ _ => -1#16) ∧
  ControlWordGives 0b011001#6 .aluW011001 (fun _ _ => -1#16) ∧
  ControlWordGives 0b100001#6 .aluW100001 (fun _ _ => -1#16) ∧
  ControlWordGives 0b100101#6 .aluW100101 (fun _ _ => -1#16) ∧
  ControlWordGives 0b101001#6 .aluW101001 (fun _ _ => -1#16) ∧
  ControlWordGives 0b101011#6 .aluW101011 (fun _ _ => -1#16) ∧
  ControlWordGives 0b101101#6 .aluW101101 (fun _ _ => -1#16) ∧
  ControlWordGives 0b101110#6 .aluW101110 (fun _ _ => -1#16) ∧
  ControlWordGives 0b111001#6 .aluW111001 (fun _ _ => -1#16) ∧
  ControlWordGives 0b111100#6 .aluW111100 (fun _ _ => -1#16)

/-- The other control words that give `x`, `!x`, `y` or `!y` (file 47). -/
def Obligations.OtherControlWordsPassingOneOperand : Prop :=
  ControlWordGives 0b001010#6 .aluW001010 (fun x _ => x) ∧
  ControlWordGives 0b011011#6 .aluW011011 (fun x _ => x) ∧
  ControlWordGives 0b011101#6 .aluW011101 (fun x _ => x) ∧
  ControlWordGives 0b001011#6 .aluW001011 (fun x _ => ~~~x) ∧
  ControlWordGives 0b011010#6 .aluW011010 (fun x _ => ~~~x) ∧
  ControlWordGives 0b011100#6 .aluW011100 (fun x _ => ~~~x) ∧
  ControlWordGives 0b100010#6 .aluW100010 (fun _ y => y) ∧
  ControlWordGives 0b100111#6 .aluW100111 (fun _ y => y) ∧
  ControlWordGives 0b110101#6 .aluW110101 (fun _ y => y) ∧
  ControlWordGives 0b100011#6 .aluW100011 (fun _ y => ~~~y) ∧
  ControlWordGives 0b100110#6 .aluW100110 (fun _ y => ~~~y) ∧
  ControlWordGives 0b110100#6 .aluW110100 (fun _ y => ~~~y)

/-- The other control words of logic (file 47). -/
def Obligations.OtherControlWordsOfLogic : Prop :=
  ControlWordGives 0b000001#6 .aluW000001 (fun x y => ~~~(x &&& y)) ∧
  ControlWordGives 0b000100#6 .aluW000100 (fun x y => x &&& ~~~y) ∧
  ControlWordGives 0b000101#6 .aluW000101 (fun x y => ~~~x ||| y) ∧
  ControlWordGives 0b010000#6 .aluW010000 (fun x y => ~~~x &&& y) ∧
  ControlWordGives 0b010001#6 .aluW010001 (fun x y => x ||| ~~~y) ∧
  ControlWordGives 0b010100#6 .aluW010100 (fun x y => ~~~(x ||| y))

/-- The other control words of arithmetic (file 47). -/
def Obligations.OtherControlWordsOfArithmetic : Prop :=
  ControlWordGives 0b000011#6 .aluW000011 (fun x y => -x - y - 1#16) ∧
  ControlWordGives 0b000110#6 .aluW000110 (fun x y => x - y - 1#16) ∧
  ControlWordGives 0b010010#6 .aluW010010 (fun x y => y - x - 1#16) ∧
  ControlWordGives 0b010110#6 .aluW010110 (fun x y => -x - y - 2#16) ∧
  ControlWordGives 0b010111#6 .aluW010111 (fun x y => x + y + 1#16) ∧
  ControlWordGives 0b011110#6 .aluW011110 (fun x _ => -x - 2#16) ∧
  ControlWordGives 0b110110#6 .aluW110110 (fun _ y => -y - 2#16) ∧
  ControlWordGives 0b111110#6 .aluW111110 (fun _ _ => -2#16)

/-- Which control words compute the same function (table T59; G1): two different words do exactly when they stand in one of
the six classes, so every other word is the only one of its function. -/
def Obligations.ControlWordsWithOneFunction : Prop :=
  ∀ c d : BitVec 6, (∀ (x y : Bus 16) (s : State), aluControl c x y s = aluControl d x y s) ↔
    (c = d ∨ ∃ l ∈ controlWordClasses, c ∈ l ∧ d ∈ l)

/-! ## Calls and designs -/

/-- A call is built exactly when its arguments have the types of the ports (R14, R61, R275), and then it is the evaluation of
that cell on those arguments, side by side (R63, R65). -/
def Obligations.CallsAreBuiltExactlyWhenTypesMatch : Prop :=
  (∀ k : Call, (∃ i, k.toInstr = .ok i) ↔ k.args.map Signal.ty = k.cell.inputTypes) ∧
  ∀ (k : Call) (i : Instr), k.toInstr = .ok i → encode i = ⟨.call k.cell, k.args.flatMap Signal.bits⟩

/-- Every row is the call it stands for (R63, R64): the call builds, and evaluating it is evaluating the row. -/
def Obligations.EveryRowIsItsCall : Prop :=
  ∀ i : Instr, ∃ j : Instr, i.asCall.toInstr = .ok j ∧ (encode j).bits = (encode i).bits ∧
    ∀ s : State, exec i s = exec j s

/-- Width checking is sound (R14, R278, R292): a design the check accepts evaluates, under either value of the parameter, and
every stage shows outputs of the types the check foretold: nothing is refused at run time.  The list of stages and the ways
to connect wires are the model's rendering of a program of R298 (log entry 12, DESIGN CHOICE). -/
def Obligations.CheckedDesignsEvaluate : Prop :=
  ∀ (d : Design) (Γ : List (List SigType)) (order : WideDemuxOrder), Design.check [] d = some Γ →
    ∃ vs, Design.eval order [] d = some vs ∧ vs.map (fun os => os.map Signal.ty) = Γ

/-- The check is exact for what a host writes: a design of which it refuses a stage does not evaluate (R14: no value, no trap,
no truncation).  The list of stages is the model's rendering (log entry 12, DESIGN CHOICE). -/
def Obligations.RefusedDesignsHaveNoValue : Prop :=
  ∀ (d : Design) (order : WideDemuxOrder), Design.check [] d = none → Design.eval order [] d = none

/-! ## Structure -/

/-- Every cell's network of `nand` cells computes its truth function (R2, R71): for every input vector and under either value
of the parameter, the settled output Bits are the Bits on the ports of the evaluation.  (Where the source gives no structure the
network is the spec's decision D4 or D6 to D11.) -/
def Obligations.NetworksComputeTheTruthFunctions : Prop :=
  ∀ (c : Cell) (v : List Bit) (s : State), v.length = c.width →
    ∃ o, Gives (decodeCell c v) s o ∧ netOutputs s.wideDemuxOrder c v = o.signals.flatMap Signal.bits

/-- Every network is acyclic: each gate reads input Bits, tie-offs and gates built before it (R2, R292); and its output wires
exist. -/
def Obligations.NetworksAreAcyclic : Prop :=
  ∀ (order : WideDemuxOrder) (c : Cell), (netOf order c).wf c.width = true ∧
    ∀ w ∈ ((structureOf order c).run Net.empty).1, w.within c.width (netOf order c).size = true

/-- The sizes of table T296 (R296): the number of `nand` cells of each cell's full expansion, under either order, with the
structures the spec decides on (D4, D6 to D11). -/
def Obligations.NetworkSizesAreThoseOfTheTable : Prop :=
  ∀ (order : WideDemuxOrder) (c : Cell), (netOf order c).size = nandCount c
end

