-- ==== Sys2Proof/Laws/Bits.lean ====
section
/-! SUPPORT. The lemmas of `bitsOf`, `ofBits`, `takeBus`, `bitAt` and `busOfBits`. -/

namespace Sys2Proof

@[simp] theorem length_bitsOf : {n : Nat} → (b : BitVec n) → (bitsOf b).length = n
  | 0, _ => rfl
  | n + 1, b => by simp [bitsOf, length_bitsOf (b.setWidth n)]

/-- Reading back the Bits of a bundle, whatever follows them. -/
theorem ofBits_bitsOf_append : {n : Nat} → (b : BitVec n) → (l : List Bit) → ofBits n (bitsOf b ++ l) = b
  | 0, b, _ => by simp [ofBits, BitVec.eq_nil b]
  | n + 1, b, l => by
    simp [bitsOf, ofBits, ofBits_bitsOf_append (b.setWidth n) l, BitVec.cons_msb_setWidth]

@[simp] theorem takeBus_bitsOf_append {n : Nat} (b : BitVec n) (l : List Bit) : takeBus n (bitsOf b ++ l) = (b, l) := by
  simp [takeBus, ofBits_bitsOf_append]

@[simp] theorem takeBus_bitsOf {n : Nat} (b : BitVec n) : takeBus n (bitsOf b) = (b, []) := by
  simpa using takeBus_bitsOf_append b []

@[simp] theorem takeBit_cons (b : Bit) (l : List Bit) : takeBit (b :: l) = (b, l) := rfl

/-- The Bits of a bundle made from Bits. -/
theorem bitsOf_ofBits : (n : Nat) → (l : List Bit) → n ≤ l.length → bitsOf (ofBits n l) = l.take n
  | 0, _, _ => by simp [bitsOf]
  | n + 1, [], h => by simp at h
  | n + 1, b :: l, h => by
    have ih := bitsOf_ofBits n l (by simpa using h)
    simp only [bitsOf, ofBits, BitVec.msb_cons, BitVec.setWidth_cons, ih, List.take_succ_cons]

/-- Reading back the Bits of a bundle. -/
theorem ofBits_bitsOf {n : Nat} (b : BitVec n) : ofBits n (bitsOf b) = b := by
  simpa using ofBits_bitsOf_append b []

/-- Two bundles with the same Bits are the same bundle. -/
theorem bitsOf_injective {n : Nat} {a b : BitVec n} (h : bitsOf a = bitsOf b) : a = b := by
  have ha := ofBits_bitsOf_append a []
  rw [h, ofBits_bitsOf_append] at ha
  exact ha.symm

namespace Machine

@[simp] theorem bitAt_cons_zero {n : Nat} (c : Bit) (b : BitVec n) : bitAt (BitVec.cons c b) 0 = c := by
  simp [bitAt, ← BitVec.msb_eq_getMsbD_zero, BitVec.msb_cons]

@[simp] theorem bitAt_cons_succ {n : Nat} (c : Bit) (b : BitVec n) (i : Nat) : bitAt (BitVec.cons c b) (i + 1) = bitAt b i := by
  simp only [bitAt, BitVec.getMsbD, BitVec.getLsbD_cons]
  by_cases h : i < n
  · have h1 : n + 1 - 1 - (i + 1) = n - 1 - i := by omega
    have h2 : ¬ (n - 1 - i = n) := by omega
    rw [h1, if_neg h2]
    simp [h]
  · simp [h]

/-- The Bits of a bus given one by one. -/
theorem bitAt_busOfBits (n : Nat) (g : Nat → Bit) (i : Nat) : bitAt (busOfBits n g) i = (decide (i < n) && g i) := by
  induction n generalizing g i with
  | zero => simp [busOfBits, bitAt]
  | succ n ih =>
    cases i with
    | zero => simp [busOfBits]
    | succ i => simp [busOfBits, ih]

/-- Two buses with the same Bits are the same bus. -/
theorem eq_of_bitAt {n : Nat} {a b : BitVec n} (h : ∀ i < n, bitAt a i = bitAt b i) : a = b :=
  BitVec.eq_of_getMsbD_eq h

/-- The element `i` of the Bits of a bundle is its Bit at index `i`. -/
theorem getD_bitsOf {n : Nat} (b : BitVec n) (i : Nat) : (bitsOf b).getD i false = bitAt b i := by
  induction n generalizing i with
  | zero => simp [bitsOf, bitAt]
  | succ n ih =>
    have hb := BitVec.cons_msb_setWidth b
    cases i with
    | zero => rw [← hb, bitAt_cons_zero]; simp [bitsOf]
    | succ i => rw [← hb, bitAt_cons_succ, ← ih]; simp only [bitsOf, BitVec.setWidth_cons, List.getD_cons_succ]

/-- The Bits of a bus given one by one, as a list. -/
theorem bitsOf_busOfBits (n : Nat) (g : Nat → Bit) : bitsOf (busOfBits n g) = (List.range n).map g := by
  induction n generalizing g with
  | zero => rfl
  | succ n ih =>
    simp only [busOfBits, bitsOf, BitVec.msb_cons, BitVec.setWidth_cons, ih, List.range_succ_eq_map, List.map_cons,
      List.map_map]
    rfl

end Machine

end Sys2Proof
end

