-- ==== Sys2Proof/Laws/Alu.lean ====
section
/-! SUPPORT. The reductions and the status outputs, and the Bits of the bus gates: what later proofs cite instead of
unfolding them. -/

namespace Sys2Proof.Machine

/-- The Bits of a bundle are its Bits at the indices `0 … n-1`. -/
theorem bitsOf_eq_map {n : Nat} (a : BitVec n) : bitsOf a = (List.range n).map (bitAt a) := by
  have h : busOfBits n (bitAt a) = a := eq_of_bitAt fun i hi => by simp [bitAt_busOfBits, hi]
  rw [← bitsOf_busOfBits, h]

theorem bitsOf_notBusOf {n : Nat} (a : Bus n) : bitsOf (notBusOf a) = (bitsOf a).map notOf := by
  simp only [bitsOf_eq_map, List.map_map]
  refine List.map_congr_left fun i hi => ?_
  simp [bitAt, notBusOf, notOf, List.mem_range.1 hi]

theorem bitsOf_zipWith {n : Nat} {a b o : Bus n} {f : Bit → Bit → Bit}
    (h : ∀ i < n, bitAt o i = f (bitAt a i) (bitAt b i)) : bitsOf o = List.zipWith f (bitsOf a) (bitsOf b) := by
  simp only [bitsOf_eq_map, List.zipWith_map, List.zipWith_self]
  exact List.map_congr_left fun i hi => h i (List.mem_range.1 hi)

theorem bitsOf_andBusOf {n : Nat} (a b : Bus n) : bitsOf (andBusOf a b) = List.zipWith andOf (bitsOf a) (bitsOf b) :=
  bitsOf_zipWith fun i _ => by simp [bitAt, andBusOf, andOf]

theorem bitsOf_orBusOf {n : Nat} (a b : Bus n) : bitsOf (orBusOf a b) = List.zipWith orOf (bitsOf a) (bitsOf b) :=
  bitsOf_zipWith fun i _ => by simp [bitAt, orBusOf, orOf]

theorem bitsOf_xorBusOf {n : Nat} (a b : Bus n) : bitsOf (xorBusOf a b) = List.zipWith xorOf (bitsOf a) (bitsOf b) :=
  bitsOf_zipWith fun i _ => by simp [bitAt, xorBusOf, xorOf]

theorem bitsOf_muxBusOf {n : Nat} (a b : Bus n) (sel : Bit) : bitsOf (muxBusOf a b sel) = select sel (bitsOf a) (bitsOf b) := by
  cases sel <;> rfl

/-- `or16way` is 0 for the zero bus alone (R116). -/
theorem or16wayOf_eq_false (a : Bus 16) : or16wayOf a = false ↔ a = 0#16 := by
  constructor
  · intro h
    refine eq_of_bitAt fun i hi => ?_
    have := List.any_eq_false.1 h i (List.mem_range.2 hi)
    simpa [bitAt] using this
  · rintro rfl
    decide

/-- `zero` says that the result is 0 (R155). -/
theorem zeroOf_eq (out : Bus 16) : zeroOf out = (out == 0#16) := by
  have h := or16wayOf_eq_false out
  cases h' : or16wayOf out <;> simp_all [zeroOf, notOf]

/-- The complement as arithmetic (R161 (a)). -/
theorem notBusOf_eq_neg (v : Bus 16) : notBusOf v = -v - 1#16 := by
  rw [notBusOf, BitVec.neg_eq_not_add, BitVec.add_sub_cancel]

end Sys2Proof.Machine
end

