-- ==== Sys2Proof/Laws/Encoding.lean ====
section
/-! SUPPORT. Everything building and decoding a vector can do; the control word as Bits, and taking an input vector apart. -/

namespace Sys2Proof

/-- Everything building a request can do. -/
theorem build_cases (v : InputVector) :
    (v.wf = true ∧ v.build = .ok ⟨v.form, ofBits v.form.width v.bits⟩) ∨
      (v.wf = false ∧ v.build = .error (.widthMismatch v.form v.bits.length)) := by
  unfold InputVector.build
  cases h : v.wf
  · exact .inr ⟨rfl, rfl⟩
  · exact .inl ⟨rfl, rfl⟩

/-- The vector of a request has the length of its form's input vector. -/
theorem vector_wf (r : Request) : r.vector.wf = true := by
  simp [Request.vector, InputVector.wf]

/-- The vector of a request builds that request. -/
theorem build_vector (r : Request) : r.vector.build = .ok r := by
  rw [InputVector.build, if_pos (vector_wf r)]
  simp only [Request.vector, ofBits_bitsOf]

/-- The vector of a request decodes to its instruction. -/
theorem decode_vector (r : Request) : decode r.vector = .ok r.instr := by
  rw [decode, build_vector]

/-- The request a vector of the right length builds has that vector. -/
theorem vector_of_wf (v : InputVector) (h : v.wf = true) :
    (⟨v.form, ofBits v.form.width v.bits⟩ : Request).vector = v := by
  have hl : v.bits.length = v.form.width := by simpa [InputVector.wf] using h
  have hb : bitsOf (ofBits v.form.width v.bits) = v.bits := by
    rw [bitsOf_ofBits _ _ (le_of_eq hl.symm), ← hl, List.take_length]
  rw [Request.vector, hb]

/-- A vector of the right length decodes to the row its form and its Bits name. -/
theorem decode_of_wf (v : InputVector) (h : v.wf = true) : decode v = .ok (decodeForm v.form v.bits) := by
  have hv := vector_of_wf v h
  have hd := decode_vector ⟨v.form, ofBits v.form.width v.bits⟩
  rw [hv] at hd
  rw [hd]
  exact congrArg (fun u : InputVector => Except.ok (decodeForm u.form u.bits)) hv

/-- Everything decoding can do. -/
theorem decode_cases (v : InputVector) :
    (v.wf = true ∧ decode v = .ok (decodeForm v.form v.bits)) ∨
      (v.wf = false ∧ decode v = .error (.widthMismatch v.form v.bits.length)) := by
  cases h : v.wf
  · exact .inr ⟨rfl, by simp [decode, InputVector.build, h]⟩
  · exact .inl ⟨rfl, decode_of_wf v h⟩

open Sys2Proof.Machine in
/-- A control word is its six Bits (spec/30_encoding.md R54). -/
theorem bitsOf_control (ctl : BitVec 6) :
    bitsOf ctl = [bitAt ctl 0, bitAt ctl 1, bitAt ctl 2, bitAt ctl 3, bitAt ctl 4, bitAt ctl 5] := by
  rw [bitsOf_eq_map]
  rfl

open Sys2Proof.Machine in
/-- A vector in the control word form decodes to the row of its six Bits. -/
theorem decode_encodeControl (ctl : BitVec 6) (x y : Bus 16) :
    decode (encodeControl ctl x y) =
      .ok (controlRow (bitAt ctl 0) (bitAt ctl 1) (bitAt ctl 2) (bitAt ctl 3) (bitAt ctl 4) (bitAt ctl 5) x y) := by
  rw [decode_of_wf _ (by
    simp [encodeControl, InputVector.wf, Form.width, Form.cell, Cell.width, Cell.inputTypes, Cell.inputs, SigType.width, BusWidth.size])]
  simp [encodeControl, decodeForm, bitsOf_control]

/-- The encoding of a control word row. -/
theorem encode_controlRow (zx nx zy ny f no : Bit) (x y : Bus 16) :
    encode (controlRow zx nx zy ny f no x y) = ⟨.aluctl, bitsOf x ++ bitsOf y ++ [zx, nx, zy, ny, f, no]⟩ := by
  cases zx <;> cases nx <;> cases zy <;> cases ny <;> cases f <;> cases no <;> rfl

/-- A vector of at least `n` Bits starts with the Bits of a bundle. -/
theorem exists_bus_prefix (n : Nat) (v : List Bit) (h : n ≤ v.length) :
    ∃ (a : BitVec n) (u : List Bit), v = bitsOf a ++ u ∧ u.length = v.length - n := by
  refine ⟨ofBits n v, v.drop n, ?_, by simp⟩
  rw [bitsOf_ofBits n v h, List.take_append_drop]

/-- A vector that is not empty starts with a Bit. -/
theorem exists_bit_prefix (n : Nat) (v : List Bit) (h : v.length = n + 1) :
    ∃ (b : Bit) (u : List Bit), v = b :: u ∧ u.length = n := by
  cases v with
  | nil => simp at h
  | cons b u => exact ⟨b, u, rfl, by simpa using h⟩

end Sys2Proof
end

