-- ==== Sys2Proof/Laws/Structure.lean ====
section
/-! SUPPORT. What each piece of construction does to a network: it keeps every wire's value, and the wire it answers carries
the truth function of the values of its arguments.  Each lemma unfolds its own definition once. -/

namespace Sys2Proof.Machine

/-- `m` is a well-formed network that has every wire of `n`, with its value. -/
structure Net.Extends (inp : List Bit) (width : Nat) (n m : Net) : Prop where
  wf : m.wf width = true
  size_le : n.size ≤ m.size
  keeps : ∀ w, w.within width n.size = true → m.read inp w = n.read inp w

/-- The wire exists in the network and carries the value. -/
def Net.Holds (inp : List Bit) (width : Nat) (n : Net) (w : Wire) (v : Bit) : Prop :=
  w.within width n.size = true ∧ n.read inp w = v

/-- The construction `b`, started on `n`, extends it and answers a result with property `post` in the new network. -/
def Built {α : Type} (inp : List Bit) (width : Nat) (b : Build α) (n : Net) (post : Net → α → Prop) : Prop :=
  ∃ r m, b n = (r, m) ∧ Net.Extends inp width n m ∧ post m r

variable {inp : List Bit} {width : Nat} {n m k : Net}

theorem Wire.within_mono {w : Wire} {i j : Nat} (h : w.within width i = true) (hij : i ≤ j) : w.within width j = true := by
  cases w <;> simp_all [Wire.within]
  omega

theorem Net.Extends.refl (h : n.wf width = true) : Net.Extends inp width n n := ⟨h, le_refl _, fun _ _ => rfl⟩

theorem Net.Extends.trans (h : Net.Extends inp width n m) (g : Net.Extends inp width m k) : Net.Extends inp width n k :=
  ⟨g.wf, h.size_le.trans g.size_le, fun w hw => (g.keeps w (Wire.within_mono hw h.size_le)).trans (h.keeps w hw)⟩

theorem Net.Holds.mono {w : Wire} {v : Bit} (hw : Net.Holds inp width n w v) (h : Net.Extends inp width n m) :
    Net.Holds inp width m w v :=
  ⟨Wire.within_mono hw.1 h.size_le, (h.keeps w hw.1).trans hw.2⟩

theorem holdsBus_mono {ws : List Wire} {vs : List Bit} (hw : List.Forall₂ (Net.Holds inp width n) ws vs)
    (h : Net.Extends inp width n m) : List.Forall₂ (Net.Holds inp width m) ws vs :=
  hw.imp fun _ _ hh => hh.mono h

theorem holds_tie (b : Bit) : Net.Holds inp width n (.tie b) b := ⟨rfl, rfl⟩

theorem holds_input {i : Nat} (h : i < width) : Net.Holds inp width n (.input i) (inp.getD i false) :=
  ⟨by simpa [Wire.within] using h, rfl⟩

theorem length_gateValues (gs : List Gate) : (gateValues inp gs).length = gs.length := by
  induction gs with
  | nil => rfl
  | cons g gs ih => simp [gateValues, ih]

theorem Wire.read_gate (vs : List Bit) (j : Nat) : (Wire.gate j).read inp vs = vs.getD (vs.length - 1 - j) false := rfl

theorem empty_wf : Net.empty.wf width = true := rfl

/-! ## Composing constructions -/

/-- One construction after another. -/
theorem Built.bind {α β : Type} {b : Build α} {c : α → Build β} {post : Net → α → Prop} {post' : Net → β → Prop}
    (hb : Built inp width b n post)
    (hc : ∀ m r, Net.Extends inp width n m → post m r → Built inp width (c r) m post') :
    Built inp width (b >>= c) n post' := by
  obtain ⟨r, m, he, hx, hp⟩ := hb
  obtain ⟨r', k, he', hx', hp'⟩ := hc m r hx hp
  refine ⟨r', k, ?_, hx.trans hx', hp'⟩
  show (StateT.bind b c) n = _
  simp only [StateT.bind]
  erw [he]
  exact he'

/-- Answering a result without building. -/
theorem Built.pure {α : Type} {r : α} {post : Net → α → Prop} (h : n.wf width = true) (hp : post n r) :
    Built inp width (Pure.pure r : Build α) n post := ⟨r, n, rfl, .refl h, hp⟩

/-- A weaker property of the result. -/
theorem Built.imp {α : Type} {b : Build α} {post post' : Net → α → Prop} (hb : Built inp width b n post)
    (h : ∀ m r, Net.Extends inp width n m → post m r → post' m r) : Built inp width b n post' := by
  obtain ⟨r, m, he, hx, hp⟩ := hb
  exact ⟨r, m, he, hx, h m r hx hp⟩

/-! ## The primitive -/

theorem nandS_built {a b : Wire} {va vb : Bit} (h : n.wf width = true) (ha : Net.Holds inp width n a va)
    (hb : Net.Holds inp width n b vb) :
    Built inp width (nandS a b) n fun m w => Net.Holds inp width m w (nandOf va vb) := by
  refine ⟨_, _, rfl, ⟨?_, Nat.le_succ _, ?_⟩, ?_, ?_⟩
  · have hs : n.size = n.gates.length := by simp [Net.wf] at h; exact h.1
    have hg : gatesAcyclic width n.gates = true := by simp [Net.wf] at h; exact h.2
    have ha1 := ha.1
    have hb1 := hb.1
    rw [hs] at ha1 hb1
    simp [Net.wf, gatesAcyclic, hs, hg, ha1, hb1]
  · intro w hw
    have hs : n.size = n.gates.length := by simp [Net.wf] at h; exact h.1
    cases w with
    | tie b => rfl
    | input i => rfl
    | gate j =>
      have hj : j < n.gates.length := by simpa [Wire.within, hs] using hw
      have e : n.gates.length + 1 - 1 - j = n.gates.length - 1 - j + 1 := by omega
      simp only [Net.read, Wire.read, gateValues, List.length_cons, length_gateValues, e, List.getD_cons_succ]
  · simp [Wire.within]
  · have hs : n.size = n.gates.length := by simp [Net.wf] at h; exact h.1
    have e : n.gates.length + 1 - 1 - n.gates.length = 0 := by omega
    simp only [Net.read, gateValues, Wire.read_gate, List.length_cons, length_gateValues, hs, e, List.getD_cons_zero]
    rw [← ha.2, ← hb.2]
    rfl

/-! ## Scalar cells -/

theorem notS_built {a : Wire} {va : Bit} (h : n.wf width = true) (ha : Net.Holds inp width n a va) :
    Built inp width (notS a) n fun m w => Net.Holds inp width m w (notOf va) :=
  (nandS_built h ha ha).imp fun m w _ hw => by cases va <;> exact hw

theorem andS_built {a b : Wire} {va vb : Bit} (h : n.wf width = true) (ha : Net.Holds inp width n a va)
    (hb : Net.Holds inp width n b vb) :
    Built inp width (andS a b) n fun m w => Net.Holds inp width m w (andOf va vb) := by
  unfold andS
  refine (nandS_built h ha hb).bind fun m t x ht => ?_
  refine (notS_built x.wf ht).imp fun k w _ hw => ?_
  cases va <;> cases vb <;> exact hw

theorem orS_built {a b : Wire} {va vb : Bit} (h : n.wf width = true) (ha : Net.Holds inp width n a va)
    (hb : Net.Holds inp width n b vb) :
    Built inp width (orS a b) n fun m w => Net.Holds inp width m w (orOf va vb) := by
  unfold orS
  refine (notS_built h ha).bind fun m1 na x1 hna => ?_
  refine (notS_built x1.wf (hb.mono x1)).bind fun m2 nb x2 hnb => ?_
  refine (andS_built x2.wf (hna.mono x2) hnb).bind fun m3 t x3 ht => ?_
  refine (notS_built x3.wf ht).imp fun k w _ hw => ?_
  cases va <;> cases vb <;> exact hw

theorem xorS_built {a b : Wire} {va vb : Bit} (h : n.wf width = true) (ha : Net.Holds inp width n a va)
    (hb : Net.Holds inp width n b vb) :
    Built inp width (xorS a b) n fun m w => Net.Holds inp width m w (xorOf va vb) := by
  unfold xorS
  refine (notS_built h ha).bind fun m1 na x1 hna => ?_
  refine (orS_built x1.wf hna (hb.mono x1)).bind fun m2 p x2 hp => ?_
  have x12 := x1.trans x2
  refine (notS_built x2.wf (hb.mono x12)).bind fun m3 nb x3 hnb => ?_
  refine (orS_built x3.wf (ha.mono (x12.trans x3)) hnb).bind fun m4 q x4 hq => ?_
  refine (andS_built x4.wf (hp.mono (x3.trans x4)) hq).bind fun m5 t x5 ht => ?_
  refine (notS_built x5.wf ht).imp fun k w _ hw => ?_
  cases va <;> cases vb <;> exact hw

theorem muxS_built {a b sel : Wire} {va vb vs : Bit} (h : n.wf width = true) (ha : Net.Holds inp width n a va)
    (hb : Net.Holds inp width n b vb) (hs : Net.Holds inp width n sel vs) :
    Built inp width (muxS a b sel) n fun m w => Net.Holds inp width m w (muxOf va vb vs) := by
  unfold muxS
  refine (orS_built h hs ha).bind fun m1 p x1 hp => ?_
  refine (notS_built x1.wf (hs.mono x1)).bind fun m2 ns x2 hns => ?_
  have x12 := x1.trans x2
  refine (orS_built x2.wf hns (hb.mono x12)).bind fun m3 q x3 hq => ?_
  refine (xorS_built x3.wf (hp.mono (x2.trans x3)) hq).bind fun m4 t x4 ht => ?_
  refine (notS_built x4.wf ht).imp fun k w _ hw => ?_
  cases va <;> cases vb <;> cases vs <;> exact hw

theorem demuxS_built {i sel : Wire} {vi vs : Bit} (h : n.wf width = true) (hi : Net.Holds inp width n i vi)
    (hs : Net.Holds inp width n sel vs) :
    Built inp width (demuxS i sel) n fun m r =>
      Net.Holds inp width m r.1 (demuxOf vi vs).1 ∧ Net.Holds inp width m r.2 (demuxOf vi vs).2 := by
  unfold demuxS
  refine (andS_built h hi hs).bind fun m1 o0 x1 h0 => ?_
  refine (notS_built x1.wf (hs.mono x1)).bind fun m2 ns x2 hns => ?_
  refine (andS_built x2.wf (hi.mono (x1.trans x2)) hns).bind fun m3 o1 x3 h1 => ?_
  exact Built.pure x3.wf ⟨h0.mono (x2.trans x3), h1⟩

/-! ## Buses -/

theorem lift1S_built {g : Wire → Build Wire} {f : Bit → Bit} {ws : List Wire} {vs : List Bit}
    (hg : ∀ {n : Net} {a : Wire} {v : Bit}, n.wf width = true → Net.Holds inp width n a v →
      Built inp width (g a) n fun m w => Net.Holds inp width m w (f v))
    (h : n.wf width = true) (hw : List.Forall₂ (Net.Holds inp width n) ws vs) :
    Built inp width (lift1S g ws) n fun m os => List.Forall₂ (Net.Holds inp width m) os (vs.map f) := by
  induction ws generalizing n vs with
  | nil => cases hw; exact Built.pure h .nil
  | cons a as ih =>
    cases hw with
    | cons ha has =>
      refine (hg h ha).bind fun m1 o x1 ho => ?_
      refine (ih x1.wf (holdsBus_mono has x1)).bind fun m2 os x2 hos => ?_
      exact Built.pure x2.wf (.cons (ho.mono x2) hos)

theorem lift2S_built {g : Wire → Wire → Build Wire} {f : Bit → Bit → Bit} {P : Net → Prop} {as bs : List Wire}
    {va vb : List Bit}
    (hP : ∀ {n m : Net}, Net.Extends inp width n m → P n → P m)
    (hg : ∀ {n : Net} {a b : Wire} {u v : Bit}, n.wf width = true → P n → Net.Holds inp width n a u →
      Net.Holds inp width n b v → Built inp width (g a b) n fun m w => Net.Holds inp width m w (f u v))
    (h : n.wf width = true) (hp : P n) (ha : List.Forall₂ (Net.Holds inp width n) as va)
    (hb : List.Forall₂ (Net.Holds inp width n) bs vb) :
    Built inp width (lift2S g as bs) n fun m os => List.Forall₂ (Net.Holds inp width m) os (List.zipWith f va vb) := by
  induction as generalizing n va bs vb with
  | nil => cases ha; exact Built.pure h .nil
  | cons a as ih =>
    cases ha with
    | cons ha has =>
      cases hb with
      | nil => exact Built.pure h .nil
      | cons hb hbs =>
        refine (hg h hp ha hb).bind fun m1 o x1 ho => ?_
        refine (ih x1.wf (hP x1 hp) (holdsBus_mono has x1) (holdsBus_mono hbs x1)).bind fun m2 os x2 hos => ?_
        exact Built.pure x2.wf (.cons (ho.mono x2) hos)

theorem zipWith_fst {va vb : List Bit} (h : va.length = vb.length) : List.zipWith (fun u _ => u) va vb = va := by
  induction va generalizing vb with
  | nil => rfl
  | cons u va ih => cases vb <;> simp_all

theorem zipWith_snd {va vb : List Bit} (h : va.length = vb.length) : List.zipWith (fun _ v => v) va vb = vb := by
  induction va generalizing vb with
  | nil => cases vb <;> simp_all
  | cons u va ih => cases vb <;> simp_all

theorem muxBusS_built {as bs : List Wire} {va vb : List Bit} {sel : Wire} {vs : Bit} (h : n.wf width = true)
    (ha : List.Forall₂ (Net.Holds inp width n) as va) (hb : List.Forall₂ (Net.Holds inp width n) bs vb)
    (hlen : va.length = vb.length) (hs : Net.Holds inp width n sel vs) :
    Built inp width (muxBusS as bs sel) n fun m os => List.Forall₂ (Net.Holds inp width m) os (select vs va vb) := by
  have hz : List.zipWith (fun u v => muxOf u v vs) va vb = select vs va vb := by
    cases vs
    · exact zipWith_fst hlen
    · exact zipWith_snd hlen
  rw [← hz]
  exact lift2S_built (P := fun n => Net.Holds inp width n sel vs) (fun x hp => hp.mono x)
    (fun h hp ha hb => muxS_built h ha hb hp) h hs ha hb

/-! ## Trees -/

theorem tree8S_built {g : Wire → Wire → Build Wire} {f : Bit → Bit → Bit} {ws : List Wire}
    {v0 v1 v2 v3 v4 v5 v6 v7 : Bit}
    (hg : ∀ {n : Net} {a b : Wire} {u v : Bit}, n.wf width = true → Net.Holds inp width n a u →
      Net.Holds inp width n b v → Built inp width (g a b) n fun m w => Net.Holds inp width m w (f u v))
    (h : n.wf width = true) (hw : List.Forall₂ (Net.Holds inp width n) ws [v0, v1, v2, v3, v4, v5, v6, v7]) :
    Built inp width (tree8S g ws) n fun m w =>
      Net.Holds inp width m w (f (f (f v0 v1) (f v2 v3)) (f (f v4 v5) (f v6 v7))) := by
  cases hw with | cons h0 hw => cases hw with | cons h1 hw => cases hw with | cons h2 hw => cases hw with | cons h3 hw =>
  cases hw with | cons h4 hw => cases hw with | cons h5 hw => cases hw with | cons h6 hw => cases hw with | cons h7 hw =>
  cases hw
  unfold tree8S
  refine (hg h h0 h1).bind fun m1 p0 x1 q0 => ?_
  refine (hg x1.wf (h2.mono x1) (h3.mono x1)).bind fun m2 p1 x2 q1 => ?_
  have y2 := x1.trans x2
  refine (hg x2.wf (h4.mono y2) (h5.mono y2)).bind fun m3 p2 x3 q2 => ?_
  have y3 := y2.trans x3
  refine (hg x3.wf (h6.mono y3) (h7.mono y3)).bind fun m4 p3 x4 q3 => ?_
  refine (hg x4.wf (q0.mono ((x2.trans x3).trans x4)) (q1.mono (x3.trans x4))).bind fun m5 r0 x5 s0 => ?_
  refine (hg x5.wf (q2.mono (x4.trans x5)) (q3.mono x5)).bind fun m6 r1 x6 s1 => ?_
  exact hg x6.wf (s0.mono x6) s1

theorem demux4wayTreeS_built {i s0 s1 : Wire} {vi v0 v1 : Bit} (h : n.wf width = true)
    (hi : Net.Holds inp width n i vi) (h0 : Net.Holds inp width n s0 v0) (h1 : Net.Holds inp width n s1 v1) :
    Built inp width (demux4wayTreeS i s0 s1) n fun m os => List.Forall₂ (Net.Holds inp width m) os
      [vi && v0 && v1, vi && v0 && !v1, vi && !v0 && v1, vi && !v0 && !v1] := by
  unfold demux4wayTreeS
  refine (demuxS_built h hi h0).bind fun m1 r x1 hr => ?_
  refine (demuxS_built x1.wf hr.1 (h1.mono x1)).bind fun m2 r2 x2 hr2 => ?_
  refine (demuxS_built x2.wf (hr.2.mono x2) (h1.mono (x1.trans x2))).bind fun m3 r3 x3 hr3 => ?_
  exact Built.pure x3.wf (.cons (hr2.1.mono x3) (.cons (hr2.2.mono x3) (.cons hr3.1 (.cons hr3.2 .nil))))

theorem demux8wayTreeS_built {i s0 s1 s2 : Wire} {vi v0 v1 v2 : Bit} (h : n.wf width = true)
    (hi : Net.Holds inp width n i vi) (h0 : Net.Holds inp width n s0 v0) (h1 : Net.Holds inp width n s1 v1)
    (h2 : Net.Holds inp width n s2 v2) :
    Built inp width (demux8wayTreeS i s0 s1 s2) n fun m os => List.Forall₂ (Net.Holds inp width m) os
      ([vi && v0 && v1 && v2, vi && v0 && v1 && !v2, vi && v0 && !v1 && v2, vi && v0 && !v1 && !v2] ++
       [vi && !v0 && v1 && v2, vi && !v0 && v1 && !v2, vi && !v0 && !v1 && v2, vi && !v0 && !v1 && !v2]) := by
  unfold demux8wayTreeS
  refine (demuxS_built h hi h0).bind fun m1 r x1 hr => ?_
  refine (demux4wayTreeS_built x1.wf hr.1 (h1.mono x1) (h2.mono x1)).bind fun m2 ws x2 hws => ?_
  have y2 := x1.trans x2
  refine (demux4wayTreeS_built x2.wf (hr.2.mono x2) (h1.mono y2) (h2.mono y2)).bind fun m3 us x3 hus => ?_
  exact Built.pure x3.wf (List.rel_append (holdsBus_mono hws x3) hus)

/-! ## Adders -/

theorem halfAdderS_built {a b : Wire} {va vb : Bit} (h : n.wf width = true) (ha : Net.Holds inp width n a va)
    (hb : Net.Holds inp width n b vb) :
    Built inp width (halfAdderS a b) n fun m r =>
      Net.Holds inp width m r.1 (halfAdderOf va vb).1 ∧ Net.Holds inp width m r.2 (halfAdderOf va vb).2 := by
  unfold halfAdderS
  refine (andS_built h ha hb).bind fun m1 c x1 hc => ?_
  refine (xorS_built x1.wf (ha.mono x1) (hb.mono x1)).bind fun m2 t x2 ht => ?_
  exact Built.pure x2.wf ⟨hc.mono x2, ht⟩

theorem fullAdderS_built {a b c : Wire} {va vb vc : Bit} (h : n.wf width = true) (ha : Net.Holds inp width n a va)
    (hb : Net.Holds inp width n b vb) (hc : Net.Holds inp width n c vc) :
    Built inp width (fullAdderS a b c) n fun m r =>
      Net.Holds inp width m r.1 (fullAdderOf va vb vc).1 ∧ Net.Holds inp width m r.2 (fullAdderOf va vb vc).2 := by
  unfold fullAdderS
  refine (halfAdderS_built h ha hb).bind fun m1 r x1 hr => ?_
  refine (halfAdderS_built x1.wf hr.2 (hc.mono x1)).bind fun m2 r2 x2 hr2 => ?_
  refine (orS_built x2.wf (hr.1.mono x2) hr2.1).bind fun m3 k x3 hk => ?_
  refine Built.pure x3.wf ⟨?_, ?_⟩
  · cases va <;> cases vb <;> cases vc <;> exact hk
  · have := hr2.2.mono x3
    cases va <;> cases vb <;> cases vc <;> exact this

/-- The Bits of a ripple-carry sum: the carry out of index 0, and the sum (R132). -/
def rippleBits : List Bit → List Bit → Bit × List Bit
  | a :: as, b :: bs =>
    let r := rippleBits as bs
    ((fullAdderOf a b r.1).1, (fullAdderOf a b r.1).2 :: r.2)
  | _, _ => (false, [])

theorem rippleS_built {as bs : List Wire} {va vb : List Bit} (h : n.wf width = true)
    (ha : List.Forall₂ (Net.Holds inp width n) as va) (hb : List.Forall₂ (Net.Holds inp width n) bs vb) :
    Built inp width (rippleS as bs) n fun m r =>
      Net.Holds inp width m r.1 (rippleBits va vb).1 ∧ List.Forall₂ (Net.Holds inp width m) r.2 (rippleBits va vb).2 := by
  induction as generalizing n va bs vb with
  | nil => cases ha; exact Built.pure h ⟨holds_tie _, .nil⟩
  | cons a as ih =>
    cases ha with
    | cons ha has =>
      cases hb with
      | nil => exact Built.pure h ⟨holds_tie _, .nil⟩
      | cons hb hbs =>
        refine (ih h has hbs).bind fun m1 r x1 hr => ?_
        refine (fullAdderS_built x1.wf (ha.mono x1) (hb.mono x1) hr.1).bind fun m2 r2 x2 hr2 => ?_
        exact Built.pure x2.wf ⟨hr2.1, .cons hr2.2 (holdsBus_mono hr.2 x2)⟩

theorem adderS_built {as bs : List Wire} {va vb : List Bit} (h : n.wf width = true)
    (ha : List.Forall₂ (Net.Holds inp width n) as va) (hb : List.Forall₂ (Net.Holds inp width n) bs vb) :
    Built inp width (adderS as bs) n fun m os => List.Forall₂ (Net.Holds inp width m) os (rippleBits va vb).2 := by
  unfold adderS
  refine (rippleS_built h ha hb).bind fun m1 r x1 hr => ?_
  exact Built.pure x1.wf hr.2

theorem holds_tieBus {w : Nat} (b : Bus w) : List.Forall₂ (Net.Holds inp width n) (tieBus b) (bitsOf b) := by
  unfold tieBus
  induction bitsOf b with
  | nil => exact .nil
  | cons c l ih => exact .cons (holds_tie c) ih

/-- The unsigned reading of a list of Bits, index 0 the most significant. -/
def listVal : List Bit → Nat
  | [] => 0
  | b :: l => b.toNat * 2 ^ l.length + listVal l

theorem listVal_bitsOf : {w : Nat} → (b : BitVec w) → listVal (bitsOf b) = b.toNat
  | 0, b => by simp [BitVec.eq_nil b, bitsOf, listVal]
  | w + 1, b => by
    have ih := listVal_bitsOf (b.setWidth w)
    have hb := congrArg BitVec.toNat (BitVec.cons_msb_setWidth b)
    rw [BitVec.toNat_cons', Nat.shiftLeft_eq] at hb
    simp only [bitsOf, listVal, length_bitsOf, ih]
    exact hb

theorem length_rippleBits {va vb : List Bit} (h : va.length = vb.length) : (rippleBits va vb).2.length = va.length := by
  induction va generalizing vb with
  | nil => cases vb <;> rfl
  | cons a va ih =>
    cases vb with
    | nil => simp at h
    | cons b vb => simpa [rippleBits] using ih (by simpa using h)

/-- The ripple adds: carry and sum together are the exact sum. -/
theorem listVal_rippleBits {va vb : List Bit} (h : va.length = vb.length) :
    (rippleBits va vb).1.toNat * 2 ^ va.length + listVal (rippleBits va vb).2 = listVal va + listVal vb := by
  induction va generalizing vb with
  | nil =>
    cases vb with
    | nil => rfl
    | cons b vb => simp at h
  | cons a va ih =>
    cases vb with
    | nil => simp at h
    | cons b vb =>
      have hl : va.length = vb.length := by simpa using h
      have ih := ih hl
      simp only [rippleBits, listVal, List.length_cons, length_rippleBits hl, Nat.pow_succ, ← hl]
      generalize 2 ^ va.length = p at *
      generalize (rippleBits va vb).1 = c at *
      cases a <;> cases b <;> cases c <;> simp [fullAdderOf] at * <;> omega

theorem listVal_lt (l : List Bit) : listVal l < 2 ^ l.length := by
  induction l with
  | nil => simp [listVal]
  | cons b l ih => cases b <;> simp [listVal, Nat.pow_succ] <;> omega

theorem listVal_injective {l l' : List Bit} (h : l.length = l'.length) (hv : listVal l = listVal l') : l = l' := by
  induction l generalizing l' with
  | nil => cases l' with
    | nil => rfl
    | cons b l' => simp at h
  | cons a l ih =>
    cases l' with
    | nil => simp at h
    | cons b l' =>
      have hl : l.length = l'.length := by simpa using h
      have h1 := listVal_lt l
      have h2 := listVal_lt l'
      simp only [listVal, hl] at hv h1
      generalize 2 ^ l'.length = p at *
      cases a <;> cases b <;> simp at hv ⊢
      · exact ih hl hv
      · omega
      · omega
      · exact ih hl hv

/-- The sum Bits of the ripple are the Bits of the adder's output (R132). -/
theorem rippleBits_bitsOf {w : Nat} (a b : Bus w) : (rippleBits (bitsOf a) (bitsOf b)).2 = bitsOf (adderOf a b) := by
  have hl : (bitsOf a).length = (bitsOf b).length := by simp
  have hlen : (rippleBits (bitsOf a) (bitsOf b)).2.length = w := by rw [length_rippleBits hl, length_bitsOf]
  refine listVal_injective (by rw [hlen, length_bitsOf]) ?_
  have h := listVal_rippleBits hl
  have hlt := listVal_lt (rippleBits (bitsOf a) (bitsOf b)).2
  rw [hlen] at hlt
  rw [listVal_bitsOf, listVal_bitsOf, length_bitsOf] at h
  rw [listVal_bitsOf, adderOf, BitVec.toNat_add, ← h, Nat.mul_add_mod_self_right]
  exact (Nat.mod_eq_of_lt hlt).symm

end Sys2Proof.Machine
end

