-- ==== Sys2Proof/Laws/Networks.lean ====
section
/-! SUPPORT. What the constructions of the bus cells, the wide multiplexers and the ALU do to a network, in terms of the
truth functions on buses. -/

namespace Sys2Proof.Machine

/-- The wires carry the Bits of the bus, index 0 first. -/
def Net.HoldsBus {w : Nat} (inp : List Bit) (width : Nat) (n : Net) (ws : List Wire) (b : Bus w) : Prop :=
  List.Forall₂ (Net.Holds inp width n) ws (bitsOf b)

variable {inp : List Bit} {width : Nat} {n m : Net}

theorem Net.HoldsBus.mono {w : Nat} {ws : List Wire} {b : Bus w} (hw : Net.HoldsBus inp width n ws b)
    (h : Net.Extends inp width n m) : Net.HoldsBus inp width m ws b := holdsBus_mono hw h

theorem holdsBus_tieBus {w : Nat} (b : Bus w) : Net.HoldsBus inp width n (tieBus b) b := holds_tieBus b

theorem notBusS_holds {w : Nat} {as : List Wire} {a : Bus w} (h : n.wf width = true) (ha : Net.HoldsBus inp width n as a) :
    Built inp width (lift1S notS as) n fun m os => Net.HoldsBus inp width m os (notBusOf a) := by
  simp only [Net.HoldsBus, bitsOf_notBusOf]
  exact lift1S_built notS_built h ha

theorem andBusS_holds {w : Nat} {as bs : List Wire} {a b : Bus w} (h : n.wf width = true)
    (ha : Net.HoldsBus inp width n as a) (hb : Net.HoldsBus inp width n bs b) :
    Built inp width (lift2S andS as bs) n fun m os => Net.HoldsBus inp width m os (andBusOf a b) := by
  simp only [Net.HoldsBus, bitsOf_andBusOf]
  exact lift2S_built (P := fun _ => True) (fun _ _ => trivial) (fun h _ ha hb => andS_built h ha hb) h trivial ha hb

theorem orBusS_holds {w : Nat} {as bs : List Wire} {a b : Bus w} (h : n.wf width = true)
    (ha : Net.HoldsBus inp width n as a) (hb : Net.HoldsBus inp width n bs b) :
    Built inp width (lift2S orS as bs) n fun m os => Net.HoldsBus inp width m os (orBusOf a b) := by
  simp only [Net.HoldsBus, bitsOf_orBusOf]
  exact lift2S_built (P := fun _ => True) (fun _ _ => trivial) (fun h _ ha hb => orS_built h ha hb) h trivial ha hb

theorem xorBusS_holds {w : Nat} {as bs : List Wire} {a b : Bus w} (h : n.wf width = true)
    (ha : Net.HoldsBus inp width n as a) (hb : Net.HoldsBus inp width n bs b) :
    Built inp width (lift2S xorS as bs) n fun m os => Net.HoldsBus inp width m os (xorBusOf a b) := by
  simp only [Net.HoldsBus, bitsOf_xorBusOf]
  exact lift2S_built (P := fun _ => True) (fun _ _ => trivial) (fun h _ ha hb => xorS_built h ha hb) h trivial ha hb

theorem muxBusS_holds {w : Nat} {as bs : List Wire} {a b : Bus w} {sel : Wire} {vs : Bit} (h : n.wf width = true)
    (ha : Net.HoldsBus inp width n as a) (hb : Net.HoldsBus inp width n bs b) (hs : Net.Holds inp width n sel vs) :
    Built inp width (muxBusS as bs sel) n fun m os => Net.HoldsBus inp width m os (muxBusOf a b vs) := by
  simp only [Net.HoldsBus, bitsOf_muxBusOf]
  exact muxBusS_built h ha hb (by simp) hs

theorem adderS_holds {w : Nat} {as bs : List Wire} {a b : Bus w} (h : n.wf width = true)
    (ha : Net.HoldsBus inp width n as a) (hb : Net.HoldsBus inp width n bs b) :
    Built inp width (adderS as bs) n fun m os => Net.HoldsBus inp width m os (adderOf a b) := by
  simp only [Net.HoldsBus, ← rippleBits_bitsOf]
  exact adderS_built h ha hb

theorem preconditionS_holds {as : List Wire} {a : Bus 16} {z c : Wire} {vz vc : Bit} (h : n.wf width = true)
    (ha : Net.HoldsBus inp width n as a) (hz : Net.Holds inp width n z vz) (hc : Net.Holds inp width n c vc) :
    Built inp width (preconditionS as z c) n fun m os => Net.HoldsBus inp width m os (preconditionOf a vz vc) := by
  unfold preconditionS
  refine (muxBusS_holds h ha (holdsBus_tieBus _) hz).bind fun m1 v1 x1 h1 => ?_
  refine (notBusS_holds x1.wf h1).bind fun m2 nv1 x2 h2 => ?_
  refine (muxBusS_holds x2.wf (h1.mono x2) h2 (hc.mono (x1.trans x2))).imp fun m3 os _ ho => ?_
  cases vz <;> cases vc <;> exact ho

theorem mux4way16S_holds {as bs cs ds : List Wire} {a b c d : Bus 16} {s0 s1 : Wire} {v0 v1 : Bit} (h : n.wf width = true)
    (ha : Net.HoldsBus inp width n as a) (hb : Net.HoldsBus inp width n bs b) (hc : Net.HoldsBus inp width n cs c)
    (hd : Net.HoldsBus inp width n ds d) (h0 : Net.Holds inp width n s0 v0) (h1 : Net.Holds inp width n s1 v1) :
    Built inp width (mux4way16S as bs cs ds s0 s1) n fun m os =>
      Net.HoldsBus inp width m os (muxBusOf (muxBusOf a b v1) (muxBusOf c d v1) v0) := by
  unfold mux4way16S
  refine (muxBusS_holds h ha hb h1).bind fun m1 p x1 hp => ?_
  refine (muxBusS_holds x1.wf (hc.mono x1) (hd.mono x1) (h1.mono x1)).bind fun m2 q x2 hq => ?_
  exact muxBusS_holds x2.wf (hp.mono x2) hq (h0.mono (x1.trans x2))

theorem mux8way16S_holds {as bs cs ds es fs gs hs : List Wire} {a b c d e f g k : Bus 16} {s0 s1 s2 : Wire} {v0 v1 v2 : Bit}
    (h : n.wf width = true)
    (ha : Net.HoldsBus inp width n as a) (hb : Net.HoldsBus inp width n bs b) (hc : Net.HoldsBus inp width n cs c)
    (hd : Net.HoldsBus inp width n ds d) (he : Net.HoldsBus inp width n es e) (hf : Net.HoldsBus inp width n fs f)
    (hg : Net.HoldsBus inp width n gs g) (hk : Net.HoldsBus inp width n hs k)
    (h0 : Net.Holds inp width n s0 v0) (h1 : Net.Holds inp width n s1 v1) (h2 : Net.Holds inp width n s2 v2) :
    Built inp width (mux8way16S as bs cs ds es fs gs hs s0 s1 s2) n fun m os =>
      Net.HoldsBus inp width m os
        (muxBusOf (muxBusOf (muxBusOf a b v2) (muxBusOf c d v2) v1) (muxBusOf (muxBusOf e f v2) (muxBusOf g k v2) v1) v0) := by
  unfold mux8way16S
  refine (muxBusS_holds h ha hb h2).bind fun m1 p1 x1 r1 => ?_
  refine (muxBusS_holds x1.wf (hc.mono x1) (hd.mono x1) (h2.mono x1)).bind fun m2 p2 x2 r2 => ?_
  have y2 := x1.trans x2
  refine (muxBusS_holds x2.wf (he.mono y2) (hf.mono y2) (h2.mono y2)).bind fun m3 p3 x3 r3 => ?_
  have y3 := y2.trans x3
  refine (muxBusS_holds x3.wf (hg.mono y3) (hk.mono y3) (h2.mono y3)).bind fun m4 p4 x4 r4 => ?_
  have y4 := y3.trans x4
  refine (muxBusS_holds x4.wf (r1.mono ((x2.trans x3).trans x4)) (r2.mono (x3.trans x4)) (h1.mono y4)).bind
    fun m5 p5 x5 r5 => ?_
  refine (muxBusS_holds x5.wf (r3.mono (x4.trans x5)) (r4.mono x5) (h1.mono (y4.trans x5))).bind fun m6 p6 x6 r6 => ?_
  exact muxBusS_holds x6.wf (r5.mono x6) r6 (h0.mono ((y4.trans x5).trans x6))

/-- The OR of sixteen Bits, as the tree of D11. -/
theorem or16wayS_holds {as : List Wire} {a : Bus 16} (h : n.wf width = true) (ha : Net.HoldsBus inp width n as a) :
    Built inp width (or16wayS as) n fun m w => Net.Holds inp width m w (or16wayOf a) := by
  have hb : bitsOf a = [bitAt a 0, bitAt a 1, bitAt a 2, bitAt a 3, bitAt a 4, bitAt a 5, bitAt a 6, bitAt a 7, bitAt a 8,
      bitAt a 9, bitAt a 10, bitAt a 11, bitAt a 12, bitAt a 13, bitAt a 14, bitAt a 15] := by
    rw [bitsOf_eq_map]; rfl
  have ht := List.forall₂_take 8 ha
  have hd := List.forall₂_drop 8 ha
  rw [hb] at ht hd
  unfold or16wayS
  refine (tree8S_built orS_built h ht).bind fun m1 p x1 hp => ?_
  refine (tree8S_built orS_built x1.wf (holdsBus_mono hd x1)).bind fun m2 q x2 hq => ?_
  refine (orS_built x2.wf (hp.mono x2) hq).imp fun m3 w _ hw => ?_
  have e : or16wayOf a = orOf
      (orOf (orOf (orOf (bitAt a 0) (bitAt a 1)) (orOf (bitAt a 2) (bitAt a 3)))
        (orOf (orOf (bitAt a 4) (bitAt a 5)) (orOf (bitAt a 6) (bitAt a 7))))
      (orOf (orOf (orOf (bitAt a 8) (bitAt a 9)) (orOf (bitAt a 10) (bitAt a 11)))
        (orOf (orOf (bitAt a 12) (bitAt a 13)) (orOf (bitAt a 14) (bitAt a 15)))) := by
    simp [or16wayOf, anyBit, List.range, List.range.loop, orOf, Bool.or_assoc]
  rw [e]
  exact hw

/-- The eight lines of the ALU (R157): the wires of the three output ports carry the result and its two status outputs. -/
theorem aluS_holds {xs ys : List Wire} {x y : Bus 16} {zx nx zy ny f no : Wire} {vzx vnx vzy vny vf vno : Bit}
    (h : n.wf width = true) (hx : Net.HoldsBus inp width n xs x) (hy : Net.HoldsBus inp width n ys y)
    (hzx : Net.Holds inp width n zx vzx) (hnx : Net.Holds inp width n nx vnx) (hzy : Net.Holds inp width n zy vzy)
    (hny : Net.Holds inp width n ny vny) (hf : Net.Holds inp width n f vf) (hno : Net.Holds inp width n no vno) :
    Built inp width (aluS xs ys zx nx zy ny f no) n fun m os => List.Forall₂ (Net.Holds inp width m) os
      ((aluOutputs (aluOf x y vzx vnx vzy vny vf vno)).signals.flatMap Signal.bits) := by
  unfold aluS
  refine (preconditionS_holds h hx hzx hnx).bind fun m1 x2 x1 r1 => ?_
  refine (preconditionS_holds x1.wf (hy.mono x1) (hzy.mono x1) (hny.mono x1)).bind fun m2 y2 e2 r2 => ?_
  have k2 := x1.trans e2
  refine (andBusS_holds e2.wf (r1.mono e2) r2).bind fun m3 conj e3 r3 => ?_
  have k3 := k2.trans e3
  refine (adderS_holds e3.wf (r1.mono (e2.trans e3)) (r2.mono e3)).bind fun m4 total e4 r4 => ?_
  have k4 := k3.trans e4
  refine (muxBusS_holds e4.wf (r3.mono e4) r4 (hf.mono k4)).bind fun m5 cand e5 r5 => ?_
  refine (notBusS_holds e5.wf r5).bind fun m6 ncand e6 r6 => ?_
  refine (muxBusS_holds e6.wf (r5.mono e6) r6 (hno.mono ((k4.trans e5).trans e6))).bind fun m7 out e7 r7 => ?_
  have ho : muxBusOf
      (muxBusOf (andBusOf (preconditionOf x vzx vnx) (preconditionOf y vzy vny))
        (adderOf (preconditionOf x vzx vnx) (preconditionOf y vzy vny)) vf)
      (notBusOf (muxBusOf (andBusOf (preconditionOf x vzx vnx) (preconditionOf y vzy vny))
        (adderOf (preconditionOf x vzx vnx) (preconditionOf y vzy vny)) vf)) vno
      = aluOf x y vzx vnx vzy vny vf vno := by
    cases vf <;> cases vno <;> rfl
  rw [ho] at r7
  refine (or16wayS_holds e7.wf r7).bind fun m8 any e8 r8 => ?_
  refine (notS_built e8.wf r8).bind fun m9 zero e9 r9 => ?_
  have r10 := (r7.mono e8).mono e9
  refine Built.pure e9.wf ?_
  generalize aluOf x y vzx vnx vzy vny vf vno = o at r9 r10 ⊢
  have hs : (aluOutputs o).signals.flatMap Signal.bits = bitsOf o ++ [zeroOf o, negativeOf o] := by
    simp [aluOutputs, Outputs.signals, Signal.bits]
  rw [hs]
  refine List.rel_append r10 (.cons r9 (.cons ?_ .nil))
  unfold Net.HoldsBus at r10
  have hb : bitsOf o = negativeOf o :: (bitsOf o).tail := by
    rw [bitsOf_eq_map]; rfl
  rw [hb] at r10
  cases r10 with
  | cons hh _ => exact hh

end Sys2Proof.Machine
end

