-- ==== Sys2Proof/Laws/PerInstr.lean ====
section
/-! SUPPORT. The family EncodedWidth: the encoding of every instruction is as long as the input vector of its form
(spec/30_encoding.md R65; spec/10_state.md R29), one lemma per constructor. -/

namespace Sys2Proof

/-- The vector of the encoding of `i` has exactly the length of its cell's input vector. -/
def Laws.EncodedWidth.Statement (i : Instr) : Prop := (encode i).bits.length = (encode i).form.width

theorem Laws.EncodedWidth.aluAnd (x y : Bus 16) : Laws.EncodedWidth.Statement (.aluAnd x y) := rfl
theorem Laws.EncodedWidth.aluW000001 (x y : Bus 16) : Laws.EncodedWidth.Statement (.aluW000001 x y) := rfl
theorem Laws.EncodedWidth.aluAdd (x y : Bus 16) : Laws.EncodedWidth.Statement (.aluAdd x y) := rfl
theorem Laws.EncodedWidth.aluW000011 (x y : Bus 16) : Laws.EncodedWidth.Statement (.aluW000011 x y) := rfl
theorem Laws.EncodedWidth.aluW000100 (x y : Bus 16) : Laws.EncodedWidth.Statement (.aluW000100 x y) := rfl
theorem Laws.EncodedWidth.aluW000101 (x y : Bus 16) : Laws.EncodedWidth.Statement (.aluW000101 x y) := rfl
theorem Laws.EncodedWidth.aluW000110 (x y : Bus 16) : Laws.EncodedWidth.Statement (.aluW000110 x y) := rfl
theorem Laws.EncodedWidth.aluSubYX (x y : Bus 16) : Laws.EncodedWidth.Statement (.aluSubYX x y) := rfl
theorem Laws.EncodedWidth.aluW001000 (x y : Bus 16) : Laws.EncodedWidth.Statement (.aluW001000 x y) := rfl
theorem Laws.EncodedWidth.aluW001001 (x y : Bus 16) : Laws.EncodedWidth.Statement (.aluW001001 x y) := rfl
theorem Laws.EncodedWidth.aluW001010 (x y : Bus 16) : Laws.EncodedWidth.Statement (.aluW001010 x y) := rfl
theorem Laws.EncodedWidth.aluW001011 (x y : Bus 16) : Laws.EncodedWidth.Statement (.aluW001011 x y) := rfl
theorem Laws.EncodedWidth.aluX (x y : Bus 16) : Laws.EncodedWidth.Statement (.aluX x y) := rfl
theorem Laws.EncodedWidth.aluNotX (x y : Bus 16) : Laws.EncodedWidth.Statement (.aluNotX x y) := rfl
theorem Laws.EncodedWidth.aluDecX (x y : Bus 16) : Laws.EncodedWidth.Statement (.aluDecX x y) := rfl
theorem Laws.EncodedWidth.aluNegX (x y : Bus 16) : Laws.EncodedWidth.Statement (.aluNegX x y) := rfl
theorem Laws.EncodedWidth.aluW010000 (x y : Bus 16) : Laws.EncodedWidth.Statement (.aluW010000 x y) := rfl
theorem Laws.EncodedWidth.aluW010001 (x y : Bus 16) : Laws.EncodedWidth.Statement (.aluW010001 x y) := rfl
theorem Laws.EncodedWidth.aluW010010 (x y : Bus 16) : Laws.EncodedWidth.Statement (.aluW010010 x y) := rfl
theorem Laws.EncodedWidth.aluSubXY (x y : Bus 16) : Laws.EncodedWidth.Statement (.aluSubXY x y) := rfl
theorem Laws.EncodedWidth.aluW010100 (x y : Bus 16) : Laws.EncodedWidth.Statement (.aluW010100 x y) := rfl
theorem Laws.EncodedWidth.aluOr (x y : Bus 16) : Laws.EncodedWidth.Statement (.aluOr x y) := rfl
theorem Laws.EncodedWidth.aluW010110 (x y : Bus 16) : Laws.EncodedWidth.Statement (.aluW010110 x y) := rfl
theorem Laws.EncodedWidth.aluW010111 (x y : Bus 16) : Laws.EncodedWidth.Statement (.aluW010111 x y) := rfl
theorem Laws.EncodedWidth.aluW011000 (x y : Bus 16) : Laws.EncodedWidth.Statement (.aluW011000 x y) := rfl
theorem Laws.EncodedWidth.aluW011001 (x y : Bus 16) : Laws.EncodedWidth.Statement (.aluW011001 x y) := rfl
theorem Laws.EncodedWidth.aluW011010 (x y : Bus 16) : Laws.EncodedWidth.Statement (.aluW011010 x y) := rfl
theorem Laws.EncodedWidth.aluW011011 (x y : Bus 16) : Laws.EncodedWidth.Statement (.aluW011011 x y) := rfl
theorem Laws.EncodedWidth.aluW011100 (x y : Bus 16) : Laws.EncodedWidth.Statement (.aluW011100 x y) := rfl
theorem Laws.EncodedWidth.aluW011101 (x y : Bus 16) : Laws.EncodedWidth.Statement (.aluW011101 x y) := rfl
theorem Laws.EncodedWidth.aluW011110 (x y : Bus 16) : Laws.EncodedWidth.Statement (.aluW011110 x y) := rfl
theorem Laws.EncodedWidth.aluIncX (x y : Bus 16) : Laws.EncodedWidth.Statement (.aluIncX x y) := rfl
theorem Laws.EncodedWidth.aluW100000 (x y : Bus 16) : Laws.EncodedWidth.Statement (.aluW100000 x y) := rfl
theorem Laws.EncodedWidth.aluW100001 (x y : Bus 16) : Laws.EncodedWidth.Statement (.aluW100001 x y) := rfl
theorem Laws.EncodedWidth.aluW100010 (x y : Bus 16) : Laws.EncodedWidth.Statement (.aluW100010 x y) := rfl
theorem Laws.EncodedWidth.aluW100011 (x y : Bus 16) : Laws.EncodedWidth.Statement (.aluW100011 x y) := rfl
theorem Laws.EncodedWidth.aluW100100 (x y : Bus 16) : Laws.EncodedWidth.Statement (.aluW100100 x y) := rfl
theorem Laws.EncodedWidth.aluW100101 (x y : Bus 16) : Laws.EncodedWidth.Statement (.aluW100101 x y) := rfl
theorem Laws.EncodedWidth.aluW100110 (x y : Bus 16) : Laws.EncodedWidth.Statement (.aluW100110 x y) := rfl
theorem Laws.EncodedWidth.aluW100111 (x y : Bus 16) : Laws.EncodedWidth.Statement (.aluW100111 x y) := rfl
theorem Laws.EncodedWidth.aluW101000 (x y : Bus 16) : Laws.EncodedWidth.Statement (.aluW101000 x y) := rfl
theorem Laws.EncodedWidth.aluW101001 (x y : Bus 16) : Laws.EncodedWidth.Statement (.aluW101001 x y) := rfl
theorem Laws.EncodedWidth.aluZero (x y : Bus 16) : Laws.EncodedWidth.Statement (.aluZero x y) := rfl
theorem Laws.EncodedWidth.aluW101011 (x y : Bus 16) : Laws.EncodedWidth.Statement (.aluW101011 x y) := rfl
theorem Laws.EncodedWidth.aluW101100 (x y : Bus 16) : Laws.EncodedWidth.Statement (.aluW101100 x y) := rfl
theorem Laws.EncodedWidth.aluW101101 (x y : Bus 16) : Laws.EncodedWidth.Statement (.aluW101101 x y) := rfl
theorem Laws.EncodedWidth.aluW101110 (x y : Bus 16) : Laws.EncodedWidth.Statement (.aluW101110 x y) := rfl
theorem Laws.EncodedWidth.aluW101111 (x y : Bus 16) : Laws.EncodedWidth.Statement (.aluW101111 x y) := rfl
theorem Laws.EncodedWidth.aluY (x y : Bus 16) : Laws.EncodedWidth.Statement (.aluY x y) := rfl
theorem Laws.EncodedWidth.aluNotY (x y : Bus 16) : Laws.EncodedWidth.Statement (.aluNotY x y) := rfl
theorem Laws.EncodedWidth.aluDecY (x y : Bus 16) : Laws.EncodedWidth.Statement (.aluDecY x y) := rfl
theorem Laws.EncodedWidth.aluNegY (x y : Bus 16) : Laws.EncodedWidth.Statement (.aluNegY x y) := rfl
theorem Laws.EncodedWidth.aluW110100 (x y : Bus 16) : Laws.EncodedWidth.Statement (.aluW110100 x y) := rfl
theorem Laws.EncodedWidth.aluW110101 (x y : Bus 16) : Laws.EncodedWidth.Statement (.aluW110101 x y) := rfl
theorem Laws.EncodedWidth.aluW110110 (x y : Bus 16) : Laws.EncodedWidth.Statement (.aluW110110 x y) := rfl
theorem Laws.EncodedWidth.aluIncY (x y : Bus 16) : Laws.EncodedWidth.Statement (.aluIncY x y) := rfl
theorem Laws.EncodedWidth.aluW111000 (x y : Bus 16) : Laws.EncodedWidth.Statement (.aluW111000 x y) := rfl
theorem Laws.EncodedWidth.aluW111001 (x y : Bus 16) : Laws.EncodedWidth.Statement (.aluW111001 x y) := rfl
theorem Laws.EncodedWidth.aluNeg1 (x y : Bus 16) : Laws.EncodedWidth.Statement (.aluNeg1 x y) := rfl
theorem Laws.EncodedWidth.aluW111011 (x y : Bus 16) : Laws.EncodedWidth.Statement (.aluW111011 x y) := rfl
theorem Laws.EncodedWidth.aluW111100 (x y : Bus 16) : Laws.EncodedWidth.Statement (.aluW111100 x y) := rfl
theorem Laws.EncodedWidth.aluW111101 (x y : Bus 16) : Laws.EncodedWidth.Statement (.aluW111101 x y) := rfl
theorem Laws.EncodedWidth.aluW111110 (x y : Bus 16) : Laws.EncodedWidth.Statement (.aluW111110 x y) := rfl
theorem Laws.EncodedWidth.aluOne (x y : Bus 16) : Laws.EncodedWidth.Statement (.aluOne x y) := rfl
theorem Laws.EncodedWidth.muxSelA (a b : Bit) : Laws.EncodedWidth.Statement (.muxSelA a b) := rfl
theorem Laws.EncodedWidth.muxSelB (a b : Bit) : Laws.EncodedWidth.Statement (.muxSelB a b) := rfl
theorem Laws.EncodedWidth.demuxSelOut1 (i : Bit) : Laws.EncodedWidth.Statement (.demuxSelOut1 i) := rfl
theorem Laws.EncodedWidth.demuxSelOut0 (i : Bit) : Laws.EncodedWidth.Statement (.demuxSelOut0 i) := rfl
theorem Laws.EncodedWidth.mux4SelA (a b : Bus 4) : Laws.EncodedWidth.Statement (.mux4SelA a b) := rfl
theorem Laws.EncodedWidth.mux4SelB (a b : Bus 4) : Laws.EncodedWidth.Statement (.mux4SelB a b) := rfl
theorem Laws.EncodedWidth.mux8SelA (a b : Bus 8) : Laws.EncodedWidth.Statement (.mux8SelA a b) := rfl
theorem Laws.EncodedWidth.mux8SelB (a b : Bus 8) : Laws.EncodedWidth.Statement (.mux8SelB a b) := rfl
theorem Laws.EncodedWidth.mux16SelA (a b : Bus 16) : Laws.EncodedWidth.Statement (.mux16SelA a b) := rfl
theorem Laws.EncodedWidth.mux16SelB (a b : Bus 16) : Laws.EncodedWidth.Statement (.mux16SelB a b) := rfl
theorem Laws.EncodedWidth.mux4way16SelA (a b c d : Bus 16) : Laws.EncodedWidth.Statement (.mux4way16SelA a b c d) := rfl
theorem Laws.EncodedWidth.mux4way16SelB (a b c d : Bus 16) : Laws.EncodedWidth.Statement (.mux4way16SelB a b c d) := rfl
theorem Laws.EncodedWidth.mux4way16SelC (a b c d : Bus 16) : Laws.EncodedWidth.Statement (.mux4way16SelC a b c d) := rfl
theorem Laws.EncodedWidth.mux4way16SelD (a b c d : Bus 16) : Laws.EncodedWidth.Statement (.mux4way16SelD a b c d) := rfl
theorem Laws.EncodedWidth.mux8way16SelA (a b c d e f g h : Bus 16) : Laws.EncodedWidth.Statement (.mux8way16SelA a b c d e f g h) := by
  simp only [Laws.EncodedWidth.Statement, encode, List.length_append, length_bitsOf]
  rfl
theorem Laws.EncodedWidth.mux8way16SelB (a b c d e f g h : Bus 16) : Laws.EncodedWidth.Statement (.mux8way16SelB a b c d e f g h) := by
  simp only [Laws.EncodedWidth.Statement, encode, List.length_append, length_bitsOf]
  rfl
theorem Laws.EncodedWidth.mux8way16SelC (a b c d e f g h : Bus 16) : Laws.EncodedWidth.Statement (.mux8way16SelC a b c d e f g h) := by
  simp only [Laws.EncodedWidth.Statement, encode, List.length_append, length_bitsOf]
  rfl
theorem Laws.EncodedWidth.mux8way16SelD (a b c d e f g h : Bus 16) : Laws.EncodedWidth.Statement (.mux8way16SelD a b c d e f g h) := by
  simp only [Laws.EncodedWidth.Statement, encode, List.length_append, length_bitsOf]
  rfl
theorem Laws.EncodedWidth.mux8way16SelE (a b c d e f g h : Bus 16) : Laws.EncodedWidth.Statement (.mux8way16SelE a b c d e f g h) := by
  simp only [Laws.EncodedWidth.Statement, encode, List.length_append, length_bitsOf]
  rfl
theorem Laws.EncodedWidth.mux8way16SelF (a b c d e f g h : Bus 16) : Laws.EncodedWidth.Statement (.mux8way16SelF a b c d e f g h) := by
  simp only [Laws.EncodedWidth.Statement, encode, List.length_append, length_bitsOf]
  rfl
theorem Laws.EncodedWidth.mux8way16SelG (a b c d e f g h : Bus 16) : Laws.EncodedWidth.Statement (.mux8way16SelG a b c d e f g h) := by
  simp only [Laws.EncodedWidth.Statement, encode, List.length_append, length_bitsOf]
  rfl
theorem Laws.EncodedWidth.mux8way16SelH (a b c d e f g h : Bus 16) : Laws.EncodedWidth.Statement (.mux8way16SelH a b c d e f g h) := by
  simp only [Laws.EncodedWidth.Statement, encode, List.length_append, length_bitsOf]
  rfl
theorem Laws.EncodedWidth.demux4waySelV0 (i : Bit) : Laws.EncodedWidth.Statement (.demux4waySelV0 i) := rfl
theorem Laws.EncodedWidth.demux4waySelV1 (i : Bit) : Laws.EncodedWidth.Statement (.demux4waySelV1 i) := rfl
theorem Laws.EncodedWidth.demux4waySelV2 (i : Bit) : Laws.EncodedWidth.Statement (.demux4waySelV2 i) := rfl
theorem Laws.EncodedWidth.demux4waySelV3 (i : Bit) : Laws.EncodedWidth.Statement (.demux4waySelV3 i) := rfl
theorem Laws.EncodedWidth.demux8waySelV0 (i : Bit) : Laws.EncodedWidth.Statement (.demux8waySelV0 i) := rfl
theorem Laws.EncodedWidth.demux8waySelV1 (i : Bit) : Laws.EncodedWidth.Statement (.demux8waySelV1 i) := rfl
theorem Laws.EncodedWidth.demux8waySelV2 (i : Bit) : Laws.EncodedWidth.Statement (.demux8waySelV2 i) := rfl
theorem Laws.EncodedWidth.demux8waySelV3 (i : Bit) : Laws.EncodedWidth.Statement (.demux8waySelV3 i) := rfl
theorem Laws.EncodedWidth.demux8waySelV4 (i : Bit) : Laws.EncodedWidth.Statement (.demux8waySelV4 i) := rfl
theorem Laws.EncodedWidth.demux8waySelV5 (i : Bit) : Laws.EncodedWidth.Statement (.demux8waySelV5 i) := rfl
theorem Laws.EncodedWidth.demux8waySelV6 (i : Bit) : Laws.EncodedWidth.Statement (.demux8waySelV6 i) := rfl
theorem Laws.EncodedWidth.demux8waySelV7 (i : Bit) : Laws.EncodedWidth.Statement (.demux8waySelV7 i) := rfl
theorem Laws.EncodedWidth.nandGate (a b : Bit) : Laws.EncodedWidth.Statement (.nandGate a b) := rfl
theorem Laws.EncodedWidth.notGate (a : Bit) : Laws.EncodedWidth.Statement (.notGate a) := rfl
theorem Laws.EncodedWidth.andGate (a b : Bit) : Laws.EncodedWidth.Statement (.andGate a b) := rfl
theorem Laws.EncodedWidth.orGate (a b : Bit) : Laws.EncodedWidth.Statement (.orGate a b) := rfl
theorem Laws.EncodedWidth.xorGate (a b : Bit) : Laws.EncodedWidth.Statement (.xorGate a b) := rfl
theorem Laws.EncodedWidth.muxBit (a b sel : Bit) : Laws.EncodedWidth.Statement (.muxBit a b sel) := rfl
theorem Laws.EncodedWidth.demuxBit (i sel : Bit) : Laws.EncodedWidth.Statement (.demuxBit i sel) := rfl
theorem Laws.EncodedWidth.not4 (a : Bus 4) : Laws.EncodedWidth.Statement (.not4 a) := rfl
theorem Laws.EncodedWidth.not8 (a : Bus 8) : Laws.EncodedWidth.Statement (.not8 a) := rfl
theorem Laws.EncodedWidth.not16 (a : Bus 16) : Laws.EncodedWidth.Statement (.not16 a) := rfl
theorem Laws.EncodedWidth.and4 (a b : Bus 4) : Laws.EncodedWidth.Statement (.and4 a b) := rfl
theorem Laws.EncodedWidth.and8 (a b : Bus 8) : Laws.EncodedWidth.Statement (.and8 a b) := rfl
theorem Laws.EncodedWidth.and16 (a b : Bus 16) : Laws.EncodedWidth.Statement (.and16 a b) := rfl
theorem Laws.EncodedWidth.or4 (a b : Bus 4) : Laws.EncodedWidth.Statement (.or4 a b) := rfl
theorem Laws.EncodedWidth.or8 (a b : Bus 8) : Laws.EncodedWidth.Statement (.or8 a b) := rfl
theorem Laws.EncodedWidth.or16 (a b : Bus 16) : Laws.EncodedWidth.Statement (.or16 a b) := rfl
theorem Laws.EncodedWidth.xor4 (a b : Bus 4) : Laws.EncodedWidth.Statement (.xor4 a b) := rfl
theorem Laws.EncodedWidth.xor8 (a b : Bus 8) : Laws.EncodedWidth.Statement (.xor8 a b) := rfl
theorem Laws.EncodedWidth.xor16 (a b : Bus 16) : Laws.EncodedWidth.Statement (.xor16 a b) := rfl
theorem Laws.EncodedWidth.mux4 (a b : Bus 4) (sel : Bit) : Laws.EncodedWidth.Statement (.mux4 a b sel) := rfl
theorem Laws.EncodedWidth.mux8 (a b : Bus 8) (sel : Bit) : Laws.EncodedWidth.Statement (.mux8 a b sel) := rfl
theorem Laws.EncodedWidth.mux16 (a b : Bus 16) (sel : Bit) : Laws.EncodedWidth.Statement (.mux16 a b sel) := rfl
theorem Laws.EncodedWidth.or8way (a : Bus 8) : Laws.EncodedWidth.Statement (.or8way a) := rfl
theorem Laws.EncodedWidth.and8way (a : Bus 8) : Laws.EncodedWidth.Statement (.and8way a) := rfl
theorem Laws.EncodedWidth.mux4way16 (a b c d : Bus 16) (sel : Selector 2) : Laws.EncodedWidth.Statement (.mux4way16 a b c d sel) := rfl
theorem Laws.EncodedWidth.mux8way16 (a b c d e f g h : Bus 16) (sel : Selector 3) : Laws.EncodedWidth.Statement (.mux8way16 a b c d e f g h sel) := by
  simp only [Laws.EncodedWidth.Statement, encode, List.length_append, length_bitsOf]
  rfl
theorem Laws.EncodedWidth.demux4way (i : Bit) (sel : Selector 2) : Laws.EncodedWidth.Statement (.demux4way i sel) := rfl
theorem Laws.EncodedWidth.demux8way (i : Bit) (sel : Selector 3) : Laws.EncodedWidth.Statement (.demux8way i sel) := rfl
theorem Laws.EncodedWidth.or16way (a : Bus 16) : Laws.EncodedWidth.Statement (.or16way a) := rfl
theorem Laws.EncodedWidth.halfAdder (a b : Bit) : Laws.EncodedWidth.Statement (.halfAdder a b) := rfl
theorem Laws.EncodedWidth.fullAdder (a b c : Bit) : Laws.EncodedWidth.Statement (.fullAdder a b c) := rfl
theorem Laws.EncodedWidth.adder4 (a b : Bus 4) : Laws.EncodedWidth.Statement (.adder4 a b) := rfl
theorem Laws.EncodedWidth.adder8 (a b : Bus 8) : Laws.EncodedWidth.Statement (.adder8 a b) := rfl
theorem Laws.EncodedWidth.adder16 (a b : Bus 16) : Laws.EncodedWidth.Statement (.adder16 a b) := rfl
theorem Laws.EncodedWidth.incrementer4 (a : Bus 4) : Laws.EncodedWidth.Statement (.incrementer4 a) := rfl
theorem Laws.EncodedWidth.incrementer8 (a : Bus 8) : Laws.EncodedWidth.Statement (.incrementer8 a) := rfl
theorem Laws.EncodedWidth.incrementer16 (a : Bus 16) : Laws.EncodedWidth.Statement (.incrementer16 a) := rfl
theorem Laws.EncodedWidth.alu (x y : Bus 16) (zx nx zy ny f no : Bit) : Laws.EncodedWidth.Statement (.alu x y zx nx zy ny f no) := rfl

end Sys2Proof
end

