-- ==== Sys2Proof/Laws/State.lean ====
section
/-! SUPPORT. One lemma per field per update of State, and what the shared operations can do. -/

namespace Sys2Proof.Machine

@[simp] theorem State.withOutputs_wideDemuxOrder (s : State) (o : Outputs) :
    (s.withOutputs o).wideDemuxOrder = s.wideDemuxOrder := rfl
@[simp] theorem State.withOutputs_requests (s : State) (o : Outputs) : (s.withOutputs o).requests = s.requests := rfl
@[simp] theorem State.withOutputs_outputs (s : State) (o : Outputs) : (s.withOutputs o).outputs = some o := rfl
@[simp] theorem State.withRequests_wideDemuxOrder (s : State) (rs : List Request) :
    (s.withRequests rs).wideDemuxOrder = s.wideDemuxOrder := rfl
@[simp] theorem State.withRequests_requests (s : State) (rs : List Request) : (s.withRequests rs).requests = rs := rfl
@[simp] theorem State.withRequests_outputs (s : State) (rs : List Request) : (s.withRequests rs).outputs = s.outputs := rfl
@[simp] theorem State.withFetchWord_wideDemuxOrder (s : State) (nbits w : Nat) :
    (s.withFetchWord nbits w).wideDemuxOrder = s.wideDemuxOrder := by unfold State.withFetchWord; split <;> rfl
@[simp] theorem State.withFetchWord_requests (s : State) (nbits w : Nat) :
    (s.withFetchWord nbits w).requests = (tableRequest nbits w).toList ++ s.requests := by
  unfold State.withFetchWord; split <;> simp [*]
@[simp] theorem State.withFetchWord_outputs (s : State) (nbits w : Nat) : (s.withFetchWord nbits w).outputs = s.outputs := by
  unfold State.withFetchWord; split <;> rfl

/-- A state is its three fields. -/
theorem State.ext_fields {s t : State} (ho : s.wideDemuxOrder = t.wideDemuxOrder) (hr : s.requests = t.requests)
    (hv : s.outputs = t.outputs) : s = t := by
  cases s; cases t; simp_all

/-- `drive` always answers a next state. -/
theorem drive_eq (o : Outputs) (s : State) : drive o s = .next (s.withOutputs o) := rfl

/-- Everything fetching can do. -/
theorem fetch_cases (s : State) :
    (s.requests = [] ∧ fetch s = none) ∨
      ∃ r rs, s.requests = r :: rs ∧ fetch s = some (r, s.withRequests rs) := by
  unfold fetch
  cases h : s.requests with
  | nil => exact .inl ⟨rfl, rfl⟩
  | cons r rs => exact .inr ⟨r, rs, rfl, rfl⟩

/-- Everything an instruction can do: it puts some outputs on the ports, and nothing else. -/
theorem exec_drives (i : Instr) (s : State) : ∃ o, exec i s = drive o s := by
  cases i <;> exact ⟨_, rfl⟩

/-- Everything a step can do: nothing is presented and nothing happens, or the next request is made. -/
theorem step_cases (s : State) :
    (s.requests = [] ∧ step s = .next s) ∨
      ∃ r rs, s.requests = r :: rs ∧ step s = exec r.instr (s.withRequests rs) := by
  rcases fetch_cases s with ⟨h, hf⟩ | ⟨r, rs, h, hf⟩
  · exact .inl ⟨h, by simp [step, hf]⟩
  · exact .inr ⟨r, rs, h, by simp [step, hf]⟩

end Sys2Proof.Machine
end

