-- ==== Sys2Proof/Laws/Terms.lean ====
section
/-! SUPPORT. The static check of calls, and of the sources of a design: everything each of them can answer. -/

namespace Sys2Proof

/-- The check of a list of arguments succeeds for the port types alone. -/
theorem checkTypes_eq_ok (c : Cell) (pos : Nat) (ps ts : List SigType) : checkTypes c pos ps ts = .ok () ↔ ts = ps := by
  induction ps generalizing pos ts with
  | nil => cases ts <;> simp [checkTypes]
  | cons p ps ih =>
    cases ts with
    | nil => simp [checkTypes]
    | cons t ts =>
      simp only [checkTypes]
      by_cases h : t = p <;> simp [h, ih]

/-- Everything building a call can do. -/
theorem toInstr_cases (k : Call) :
    (k.args.map Signal.ty = k.cell.inputTypes ∧ k.toInstr = .ok (decodeCell k.cell (k.args.flatMap Signal.bits))) ∨
      (k.args.map Signal.ty ≠ k.cell.inputTypes ∧ ∃ e, k.toInstr = .error e) := by
  by_cases h : k.args.map Signal.ty = k.cell.inputTypes
  · exact .inl ⟨h, by rw [Call.toInstr, Call.check, (checkTypes_eq_ok _ _ _ _).2 h]⟩
  · refine .inr ⟨h, ?_⟩
    unfold Call.toInstr
    cases hc : k.check with
    | ok _ => exact absurd ((checkTypes_eq_ok _ _ _ _).1 hc) h
    | error e => exact ⟨e, rfl⟩

namespace Machine

/-- The type of a source is the type of its signal. -/
theorem sourceType_eq_value {Γ : List (List SigType)} {vs : List (List Signal)}
    (h : vs.map (fun os => os.map Signal.ty) = Γ) (s : Source) : s.type Γ = (Source.value vs s).map Signal.ty := by
  cases s with
  | lit v => rfl
  | out k j =>
    subst h
    simp only [Source.type, Source.value, List.getElem?_map]
    cases vs[k]? <;> simp

/-- There are as many wires as they carry Bits. -/
theorem wiresCount_eq_value {Γ : List (List SigType)} {vs : List (List Signal)}
    (h : vs.map (fun os => os.map Signal.ty) = Γ) (u : Wires) : u.count Γ = (Wires.value vs u).map List.length := by
  induction u with
  | bit s =>
    simp only [Wires.count, Wires.value, sourceType_eq_value h]
    rcases Source.value vs s with _ | v
    · rfl
    · cases v <;> rfl
  | index s i =>
    simp only [Wires.count, Wires.value, sourceType_eq_value h]
    rcases Source.value vs s with _ | v
    · rfl
    · cases v <;> simp only [Option.map, Signal.ty] <;> split <;> rfl
  | slice s i j =>
    simp only [Wires.count, Wires.value, sourceType_eq_value h]
    rcases Source.value vs s with _ | v
    · rfl
    · cases v <;> simp only [Option.map, Signal.ty]
      split <;> simp
  | cat u v ihu ihv =>
    simp only [Wires.count, Wires.value, ihu, ihv]
    rcases Wires.value vs u with _ | l
    · rfl
    · cases Wires.value vs v <;> simp

/-- The signal of a type has that type. -/
@[simp] theorem ty_signalOf (t : SigType) (l : List Bit) : (signalOf t l).ty = t := by cases t <;> rfl

/-- The type of what a port is connected to is the type of the signal it carries. -/
theorem srcType_eq_value {Γ : List (List SigType)} {vs : List (List Signal)}
    (h : vs.map (fun os => os.map Signal.ty) = Γ) (s : Src) : s.type Γ = (Src.value vs s).map Signal.ty := by
  cases s with
  | whole s => exact sourceType_eq_value h s
  | bundle t u =>
    simp only [Src.type, Src.value, wiresCount_eq_value h]
    rcases Wires.value vs u with _ | l
    · rfl
    · by_cases hl : l.length = t.width <;> simp [hl]

/-- The same for the arguments of a stage. -/
theorem srcTypes_eq_values {Γ : List (List SigType)} {vs : List (List Signal)}
    (h : vs.map (fun os => os.map Signal.ty) = Γ) (ss : List Src) :
    Src.types Γ ss = (Src.values vs ss).map (List.map Signal.ty) := by
  induction ss with
  | nil => rfl
  | cons s ss ih =>
    simp only [Src.types, Src.values, ih, srcType_eq_value h]
    rcases Src.value vs s with _ | v
    · rfl
    · cases Src.values vs ss <;> rfl

end Machine

end Sys2Proof
end

