-- ==== Sys2Proof/Tests/Slice0.lean ====
section
/-! SUPPORT. The model's own tests.  Every expected value is the spec's: the tables of spec/95_test_vectors.md (its ids are
named), table T29, T57 and T59, or the words of spec/30_encoding.md written out.  Then, for every statement with hypotheses,
a witness that meets them. -/

namespace Sys2Proof.Tests

open Sys2Proof.Machine

/-- The instruction, evaluated by the machine at reset, shows these outputs. -/
def shows (i : Instr) (o : Outputs) : Bool := outputsOf i State.reset == some o

/-- The same for a list of instructions. -/
def showsAll (l : List (Instr × Outputs)) : Bool := l.all fun p => shows p.1 p.2

/-- The same under the other value of `WIDE_DEMUX_ORDER`. -/
def showsAllIndex (l : List (Instr × Outputs)) : Bool := l.all fun p => outputsOf p.1 (State.idle .index) == some p.2

/-- The vector written as the `n` digits of a number. -/
def word (form : Form) (n w : Nat) : InputVector := ⟨form, bitsOf (BitVec.ofNat n w)⟩

/-- These words decode to these instructions. -/
def decodesAll (l : List (InputVector × Instr)) : Bool := l.all fun p => (decode p.1).toOption == some p.2

/-- These calls are refused, for these reasons. -/
def refusesAll (l : List (Call × BuildError)) : Bool := l.all fun p => p.1.check == .error p.2

/-! ## WellFormed: an ill-formed term for each check -/

/-- A `Bus 8` on a port of `and4` (R14, R61). -/
theorem test_call_refuses_a_wide_bus :
    (⟨.and4, [.bus .w4 0b1100#4, .bus .w8 0#8]⟩ : Call).check =
      .error (.widthMismatch .and4 1 (.bus .w4) (.bus .w8)) := by decide

/-- Every other way to connect another type: a Bit on a bus port, a bus on a Bit port, the bundle of `demux` on a bus port
(R53), a bus on a selector port (R52), a selector of another width. -/
theorem test_call_refuses_other_types : refusesAll [
    (⟨.not16, [.bit true]⟩, .widthMismatch .not16 0 (.bus .w16) .bit),
    (⟨.nandGate, [.bus .w4 0#4, .bit true]⟩, .widthMismatch .nandGate 0 .bit (.bus .w4)),
    (⟨.not4, [.pair true false]⟩, .widthMismatch .not4 0 (.bus .w4) .pair),
    (⟨.demux4way, [.bit true, .bus .w4 0#4]⟩, .widthMismatch .demux4way 1 (.sel .k2) (.bus .w4)),
    (⟨.demux4way, [.bit true, .sel .k3 0#3]⟩, .widthMismatch .demux4way 1 (.sel .k2) (.sel .k3))] = true := by decide

/-- An input left unconnected, and an argument too many (R297). -/
theorem test_call_refuses_wrong_arity : refusesAll [
    (⟨.fullAdder, [.bit true, .bit true]⟩, .wrongArity .fullAdder 3 2),
    (⟨.notGate, [.bit true, .bit true]⟩, .wrongArity .notGate 1 2)] = true := by decide

/-- A call with the types of the ports is built; at the port `s` of `mux16` a `Selector<1>` is a Bit (R12, R52). -/
theorem test_call_accepts :
    (⟨.and4, [.bus .w4 0b1100#4, .bus .w4 0b1010#4]⟩ : Call).wf = true ∧
      (⟨.mux16, [.bus .w16 0x1234#16, .bus .w16 0xABCD#16, .bit true]⟩ : Call).toInstr =
        .ok (.mux16 0x1234#16 0xABCD#16 true) := by decide

/-- A vector one Bit short, and one Bit long: neither becomes a request (R14, R61). -/
theorem test_vector_of_a_wrong_length_is_not_built :
    (word (.call .muxBit) 2 0b10).wf = false ∧
      (word (.call .muxBit) 2 0b10).build = .error (.widthMismatch (.call .muxBit) 2) ∧
      (word .aluctl 39 0).build = .error (.widthMismatch .aluctl 39) := by decide

/-- A design may not read a stage that does not stand before it: no loop can be written down (R292). -/
theorem test_design_refuses_a_loop :
    Design.check [] [⟨.notGate, [.whole (.out 0 0)]⟩] = none ∧
      Design.check [] [⟨.notGate, [.whole (.out 1 0)]⟩, ⟨.notGate, [.whole (.lit (.bit true))]⟩] = none := by decide

/-- Nor a port the cell does not have, a Bit outside a bundle, a slice the wrong way round or past the end. -/
theorem test_design_refuses_missing_wires :
    Src.type [[.bit]] (.whole (.out 0 1)) = none ∧ Wires.count [[.bus .w4]] (.index (.out 0 0) 4) = none ∧
      Wires.count [[.pair]] (.index (.out 0 0) 2) = none ∧ Wires.count [[.sel .k2]] (.index (.out 0 0) 2) = none ∧
      Wires.count [[.bus .w16]] (.slice (.out 0 0) 8 7) = none ∧
      Wires.count [[.bus .w16]] (.slice (.out 0 0) 8 16) = none := by decide

/-- Nor an index or a slice of a signal that has none (R53), nor a bus as one wire. -/
theorem test_design_refuses_operations_on_no_bus :
    Wires.count [[.bit]] (.index (.out 0 0) 0) = none ∧ Wires.count [[.pair]] (.slice (.out 0 0) 0 1) = none ∧
      Wires.count [[.bus .w4]] (.bit (.out 0 0)) = none ∧
      Wires.count [[.bus .w4]] (.cat (.bit (.out 0 0)) (.slice (.out 0 0) 0 1)) = none := by decide

/-- Nor wires bundled as a type they are too many, or too few, for (R14, R28). -/
theorem test_design_refuses_a_wrong_bundle :
    Src.type [[.bus .w16]] (.bundle (.bus .w8) (.slice (.out 0 0) 0 8)) = none ∧
      Src.type [[.bus .w16]] (.bundle (.bus .w8) (.slice (.out 0 0) 0 6)) = none ∧
      Src.type [[.bus .w16]] (.bundle (.sel .k2) (.slice (.out 0 0) 0 2)) = none := by decide

/-- Nor a stage whose arguments have not the types of the ports. -/
theorem test_design_refuses_a_width :
    Design.check [] [⟨.not8, [.whole (.lit (.bus .w8 0#8))]⟩, ⟨.not4, [.whole (.out 0 0)]⟩] = none := by decide

/-- Width conversion by wires is accepted: the two halves of a `Bus 16` through `not8`, side by side again (R13). -/
theorem test_design_accepts_slices :
    let w : Source := .lit (.bus .w16 0x1234#16)
    Design.check [] [⟨.not8, [.bundle (.bus .w8) (.slice w 0 7)]⟩, ⟨.not8, [.bundle (.bus .w8) (.slice w 8 15)]⟩,
      ⟨.or16, [.bundle (.bus .w16) (.cat (.slice (.out 0 0) 0 7) (.slice (.out 1 0) 0 7)), .whole (.lit (.bus .w16 0#16))]⟩] =
        some [[.bus .w8], [.bus .w8], [.bus .w16]] := by decide

/-! ## Decoding: words written out from spec/30_encoding.md -/

set_option maxRecDepth 8000 in
/-- The control words of table T59, first quarter: `x` = 5, `y` = 3, then the six digits (R54, R65). -/
theorem test_decode_control_words_first : decodesAll [
    (word .aluctl 38 0b00000000000001010000000000000011000000, .aluAnd 0x0005#16 0x0003#16),
    (word .aluctl 38 0b00000000000001010000000000000011000001, .aluW000001 0x0005#16 0x0003#16),
    (word .aluctl 38 0b00000000000001010000000000000011000010, .aluAdd 0x0005#16 0x0003#16),
    (word .aluctl 38 0b00000000000001010000000000000011000011, .aluW000011 0x0005#16 0x0003#16),
    (word .aluctl 38 0b00000000000001010000000000000011000100, .aluW000100 0x0005#16 0x0003#16),
    (word .aluctl 38 0b00000000000001010000000000000011000101, .aluW000101 0x0005#16 0x0003#16),
    (word .aluctl 38 0b00000000000001010000000000000011000110, .aluW000110 0x0005#16 0x0003#16),
    (word .aluctl 38 0b00000000000001010000000000000011000111, .aluSubYX 0x0005#16 0x0003#16),
    (word .aluctl 38 0b00000000000001010000000000000011001000, .aluW001000 0x0005#16 0x0003#16),
    (word .aluctl 38 0b00000000000001010000000000000011001001, .aluW001001 0x0005#16 0x0003#16),
    (word .aluctl 38 0b00000000000001010000000000000011001010, .aluW001010 0x0005#16 0x0003#16),
    (word .aluctl 38 0b00000000000001010000000000000011001011, .aluW001011 0x0005#16 0x0003#16),
    (word .aluctl 38 0b00000000000001010000000000000011001100, .aluX 0x0005#16 0x0003#16),
    (word .aluctl 38 0b00000000000001010000000000000011001101, .aluNotX 0x0005#16 0x0003#16),
    (word .aluctl 38 0b00000000000001010000000000000011001110, .aluDecX 0x0005#16 0x0003#16),
    (word .aluctl 38 0b00000000000001010000000000000011001111, .aluNegX 0x0005#16 0x0003#16)] = true := by decide

set_option maxRecDepth 8000 in
/-- The control words of table T59, second quarter: `x` = 5, `y` = 3, then the six digits (R54, R65). -/
theorem test_decode_control_words_second : decodesAll [
    (word .aluctl 38 0b00000000000001010000000000000011010000, .aluW010000 0x0005#16 0x0003#16),
    (word .aluctl 38 0b00000000000001010000000000000011010001, .aluW010001 0x0005#16 0x0003#16),
    (word .aluctl 38 0b00000000000001010000000000000011010010, .aluW010010 0x0005#16 0x0003#16),
    (word .aluctl 38 0b00000000000001010000000000000011010011, .aluSubXY 0x0005#16 0x0003#16),
    (word .aluctl 38 0b00000000000001010000000000000011010100, .aluW010100 0x0005#16 0x0003#16),
    (word .aluctl 38 0b00000000000001010000000000000011010101, .aluOr 0x0005#16 0x0003#16),
    (word .aluctl 38 0b00000000000001010000000000000011010110, .aluW010110 0x0005#16 0x0003#16),
    (word .aluctl 38 0b00000000000001010000000000000011010111, .aluW010111 0x0005#16 0x0003#16),
    (word .aluctl 38 0b00000000000001010000000000000011011000, .aluW011000 0x0005#16 0x0003#16),
    (word .aluctl 38 0b00000000000001010000000000000011011001, .aluW011001 0x0005#16 0x0003#16),
    (word .aluctl 38 0b00000000000001010000000000000011011010, .aluW011010 0x0005#16 0x0003#16),
    (word .aluctl 38 0b00000000000001010000000000000011011011, .aluW011011 0x0005#16 0x0003#16),
    (word .aluctl 38 0b00000000000001010000000000000011011100, .aluW011100 0x0005#16 0x0003#16),
    (word .aluctl 38 0b00000000000001010000000000000011011101, .aluW011101 0x0005#16 0x0003#16),
    (word .aluctl 38 0b00000000000001010000000000000011011110, .aluW011110 0x0005#16 0x0003#16),
    (word .aluctl 38 0b00000000000001010000000000000011011111, .aluIncX 0x0005#16 0x0003#16)] = true := by decide

set_option maxRecDepth 8000 in
/-- The control words of table T59, third quarter: `x` = 5, `y` = 3, then the six digits (R54, R65). -/
theorem test_decode_control_words_third : decodesAll [
    (word .aluctl 38 0b00000000000001010000000000000011100000, .aluW100000 0x0005#16 0x0003#16),
    (word .aluctl 38 0b00000000000001010000000000000011100001, .aluW100001 0x0005#16 0x0003#16),
    (word .aluctl 38 0b00000000000001010000000000000011100010, .aluW100010 0x0005#16 0x0003#16),
    (word .aluctl 38 0b00000000000001010000000000000011100011, .aluW100011 0x0005#16 0x0003#16),
    (word .aluctl 38 0b00000000000001010000000000000011100100, .aluW100100 0x0005#16 0x0003#16),
    (word .aluctl 38 0b00000000000001010000000000000011100101, .aluW100101 0x0005#16 0x0003#16),
    (word .aluctl 38 0b00000000000001010000000000000011100110, .aluW100110 0x0005#16 0x0003#16),
    (word .aluctl 38 0b00000000000001010000000000000011100111, .aluW100111 0x0005#16 0x0003#16),
    (word .aluctl 38 0b00000000000001010000000000000011101000, .aluW101000 0x0005#16 0x0003#16),
    (word .aluctl 38 0b00000000000001010000000000000011101001, .aluW101001 0x0005#16 0x0003#16),
    (word .aluctl 38 0b00000000000001010000000000000011101010, .aluZero 0x0005#16 0x0003#16),
    (word .aluctl 38 0b00000000000001010000000000000011101011, .aluW101011 0x0005#16 0x0003#16),
    (word .aluctl 38 0b00000000000001010000000000000011101100, .aluW101100 0x0005#16 0x0003#16),
    (word .aluctl 38 0b00000000000001010000000000000011101101, .aluW101101 0x0005#16 0x0003#16),
    (word .aluctl 38 0b00000000000001010000000000000011101110, .aluW101110 0x0005#16 0x0003#16),
    (word .aluctl 38 0b00000000000001010000000000000011101111, .aluW101111 0x0005#16 0x0003#16)] = true := by decide

set_option maxRecDepth 8000 in
/-- The control words of table T59, fourth quarter: `x` = 5, `y` = 3, then the six digits (R54, R65). -/
theorem test_decode_control_words_fourth : decodesAll [
    (word .aluctl 38 0b00000000000001010000000000000011110000, .aluY 0x0005#16 0x0003#16),
    (word .aluctl 38 0b00000000000001010000000000000011110001, .aluNotY 0x0005#16 0x0003#16),
    (word .aluctl 38 0b00000000000001010000000000000011110010, .aluDecY 0x0005#16 0x0003#16),
    (word .aluctl 38 0b00000000000001010000000000000011110011, .aluNegY 0x0005#16 0x0003#16),
    (word .aluctl 38 0b00000000000001010000000000000011110100, .aluW110100 0x0005#16 0x0003#16),
    (word .aluctl 38 0b00000000000001010000000000000011110101, .aluW110101 0x0005#16 0x0003#16),
    (word .aluctl 38 0b00000000000001010000000000000011110110, .aluW110110 0x0005#16 0x0003#16),
    (word .aluctl 38 0b00000000000001010000000000000011110111, .aluIncY 0x0005#16 0x0003#16),
    (word .aluctl 38 0b00000000000001010000000000000011111000, .aluW111000 0x0005#16 0x0003#16),
    (word .aluctl 38 0b00000000000001010000000000000011111001, .aluW111001 0x0005#16 0x0003#16),
    (word .aluctl 38 0b00000000000001010000000000000011111010, .aluNeg1 0x0005#16 0x0003#16),
    (word .aluctl 38 0b00000000000001010000000000000011111011, .aluW111011 0x0005#16 0x0003#16),
    (word .aluctl 38 0b00000000000001010000000000000011111100, .aluW111100 0x0005#16 0x0003#16),
    (word .aluctl 38 0b00000000000001010000000000000011111101, .aluW111101 0x0005#16 0x0003#16),
    (word .aluctl 38 0b00000000000001010000000000000011111110, .aluW111110 0x0005#16 0x0003#16),
    (word .aluctl 38 0b00000000000001010000000000000011111111, .aluOne 0x0005#16 0x0003#16)] = true := by decide

/-- A bare word of the opcode table: `ALU.SUBXY` is 0x13, `ALU.ONE` is 0x3F (R65: `match` = `val(ctl)`). -/
theorem test_decode_table_words :
    decodeTableWord 8 0x13 = some (.aluSubXY 0#16 0#16) ∧ decodeTableWord 8 0x3F = some (.aluOne 0#16 0#16) ∧
      decodeTableWord 40 (2 ^ 38) = none := by decide

/-- One byte whose bits 6 and 7 are 1, the digits of `and4(1100,1010)`: the control word `001010` with `y` = 3 (log entry 4). -/
theorem test_decode_table_word_of_eight_bits : decodeTableWord 8 0xCA = some (.aluW001010 0#16 3#16) := by decide

/-- The one-Bit and two-Bit cells: the ports in port order (R65). -/
theorem test_decode_scalar_cells : decodesAll [
    (word (.call .nandGate) 2 0b10, .nandGate true false), (word (.call .notGate) 1 0b1, .notGate true),
    (word (.call .andGate) 2 0b01, .andGate false true), (word (.call .orGate) 2 0b10, .orGate true false),
    (word (.call .xorGate) 2 0b01, .xorGate false true), (word (.call .muxBit) 3 0b100, .muxBit true false false),
    (word (.call .demuxBit) 2 0b01, .demuxBit false true), (word (.call .halfAdder) 2 0b10, .halfAdder true false),
    (word (.call .fullAdder) 3 0b011, .fullAdder false true true)] = true := by decide

/-- The bus cells of width 4: `a`, then `b`, index 0 first, then the selector (R65). -/
theorem test_decode_cells_of_four : decodesAll [
    (word (.call .not4) 4 0b1100, .not4 0b1100#4), (word (.call .and4) 8 0b11001010, .and4 0b1100#4 0b1010#4),
    (word (.call .or4) 8 0b11001010, .or4 0b1100#4 0b1010#4), (word (.call .xor4) 8 0b11001010, .xor4 0b1100#4 0b1010#4),
    (word (.call .mux4) 9 0b110010101, .mux4 0b1100#4 0b1010#4 true),
    (word (.call .adder4) 8 0b01110001, .adder4 0b0111#4 0b0001#4),
    (word (.call .incrementer4) 4 0b0111, .incrementer4 0b0111#4)] = true := by decide

/-- The cells of width 8. -/
theorem test_decode_cells_of_eight : decodesAll [
    (word (.call .not8) 8 0xCA, .not8 0xCA#8), (word (.call .and8) 16 0xCAA5, .and8 0xCA#8 0xA5#8),
    (word (.call .or8) 16 0xCAA5, .or8 0xCA#8 0xA5#8), (word (.call .xor8) 16 0xCAA5, .xor8 0xCA#8 0xA5#8),
    (word (.call .mux8) 17 0b11001010101001011, .mux8 0xCA#8 0xA5#8 true),
    (word (.call .or8way) 8 0xCA, .or8way 0xCA#8), (word (.call .and8way) 8 0xCA, .and8way 0xCA#8),
    (word (.call .adder8) 16 0xCAA5, .adder8 0xCA#8 0xA5#8), (word (.call .incrementer8) 8 0x7F, .incrementer8 0x7F#8)]
    = true := by decide

set_option maxRecDepth 8000 in
/-- The cells of width 16. -/
theorem test_decode_cells_of_sixteen : decodesAll [
    (word (.call .not16) 16 0x1234, .not16 0x1234#16), (word (.call .and16) 32 0x1234ABCD, .and16 0x1234#16 0xABCD#16),
    (word (.call .or16) 32 0x1234ABCD, .or16 0x1234#16 0xABCD#16),
    (word (.call .xor16) 32 0x1234ABCD, .xor16 0x1234#16 0xABCD#16),
    (word (.call .mux16) 33 0b000100100011010010101011110011011, .mux16 0x1234#16 0xABCD#16 true),
    (word (.call .or16way) 16 0x1234, .or16way 0x1234#16),
    (word (.call .adder16) 32 0x1234ABCD, .adder16 0x1234#16 0xABCD#16),
    (word (.call .incrementer16) 16 0x00FF, .incrementer16 0x00FF#16)] = true := by decide

set_option maxRecDepth 8000 in
/-- The wide multiplexers and demultiplexers, and `alu`: the selector, or the six control Bits, last (R65).  The multiplexer
words are 16 hexadecimal digits per four ports, then the selector's digits as a last binary place. -/
theorem test_decode_wide_cells : decodesAll [
    (word (.call .demux4way) 3 0b110, .demux4way true 0b10#2), (word (.call .demux8way) 4 0b1011, .demux8way true 0b011#3),
    (word (.call .mux4way16) 66 (0xA000B111C222D333 * 4 + 0b10), .mux4way16 0xA000#16 0xB111#16 0xC222#16 0xD333#16 0b10#2),
    (word (.call .mux8way16) 131 (0xA000B111C222D333E444F55506661777 * 8 + 0b110),
      .mux8way16 0xA000#16 0xB111#16 0xC222#16 0xD333#16 0xE444#16 0xF555#16 0x0666#16 0x1777#16 0b110#3),
    (word (.call .alu) 38 0b00000000000001010000000000000011010011,
      .alu 0x0005#16 0x0003#16 false true false false true true)] = true := by decide

set_option maxRecDepth 8000 in
/-- The selector rows with one digit (R56, R57). -/
theorem test_decode_rows_of_one_digit : decodesAll [
    (word (.sel .muxBit) 3 0b100, .muxSelA true false), (word (.sel .muxBit) 3 0b101, .muxSelB true false),
    (word (.sel .demuxBit) 2 0b10, .demuxSelOut1 true), (word (.sel .demuxBit) 2 0b11, .demuxSelOut0 true),
    (word (.sel .mux4) 9 0b110010100, .mux4SelA 0b1100#4 0b1010#4),
    (word (.sel .mux4) 9 0b110010101, .mux4SelB 0b1100#4 0b1010#4),
    (word (.sel .mux8) 17 0b11001010101001010, .mux8SelA 0xCA#8 0xA5#8),
    (word (.sel .mux8) 17 0b11001010101001011, .mux8SelB 0xCA#8 0xA5#8),
    (word (.sel .mux16) 33 0b000100100011010010101011110011010, .mux16SelA 0x1234#16 0xABCD#16),
    (word (.sel .mux16) 33 0b000100100011010010101011110011011, .mux16SelB 0x1234#16 0xABCD#16)] = true := by decide

set_option maxRecDepth 8000 in
/-- The selector rows with two digits (R56, R57). -/
theorem test_decode_rows_of_two_digits : decodesAll [
    (word (.sel .mux4way16) 66 (0xA000B111C222D333 * 4 + 0b00), .mux4way16SelA 0xA000#16 0xB111#16 0xC222#16 0xD333#16),
    (word (.sel .mux4way16) 66 (0xA000B111C222D333 * 4 + 0b01), .mux4way16SelB 0xA000#16 0xB111#16 0xC222#16 0xD333#16),
    (word (.sel .mux4way16) 66 (0xA000B111C222D333 * 4 + 0b10), .mux4way16SelC 0xA000#16 0xB111#16 0xC222#16 0xD333#16),
    (word (.sel .mux4way16) 66 (0xA000B111C222D333 * 4 + 0b11), .mux4way16SelD 0xA000#16 0xB111#16 0xC222#16 0xD333#16),
    (word (.sel .demux4way) 3 0b100, .demux4waySelV0 true),
    (word (.sel .demux4way) 3 0b101, .demux4waySelV1 true),
    (word (.sel .demux4way) 3 0b110, .demux4waySelV2 true),
    (word (.sel .demux4way) 3 0b111, .demux4waySelV3 true)] = true := by decide

set_option maxRecDepth 8000 in
/-- The selector rows with three digits (R56, R57). -/
theorem test_decode_rows_of_three_digits : decodesAll [
    (word (.sel .mux8way16) 131 (0xA000B111C222D333E444F55506661777 * 8 + 0b000), .mux8way16SelA
      0xA000#16 0xB111#16 0xC222#16 0xD333#16 0xE444#16 0xF555#16 0x0666#16 0x1777#16),
    (word (.sel .mux8way16) 131 (0xA000B111C222D333E444F55506661777 * 8 + 0b001), .mux8way16SelB
      0xA000#16 0xB111#16 0xC222#16 0xD333#16 0xE444#16 0xF555#16 0x0666#16 0x1777#16),
    (word (.sel .mux8way16) 131 (0xA000B111C222D333E444F55506661777 * 8 + 0b010), .mux8way16SelC
      0xA000#16 0xB111#16 0xC222#16 0xD333#16 0xE444#16 0xF555#16 0x0666#16 0x1777#16),
    (word (.sel .mux8way16) 131 (0xA000B111C222D333E444F55506661777 * 8 + 0b011), .mux8way16SelD
      0xA000#16 0xB111#16 0xC222#16 0xD333#16 0xE444#16 0xF555#16 0x0666#16 0x1777#16),
    (word (.sel .mux8way16) 131 (0xA000B111C222D333E444F55506661777 * 8 + 0b100), .mux8way16SelE
      0xA000#16 0xB111#16 0xC222#16 0xD333#16 0xE444#16 0xF555#16 0x0666#16 0x1777#16),
    (word (.sel .mux8way16) 131 (0xA000B111C222D333E444F55506661777 * 8 + 0b101), .mux8way16SelF
      0xA000#16 0xB111#16 0xC222#16 0xD333#16 0xE444#16 0xF555#16 0x0666#16 0x1777#16),
    (word (.sel .mux8way16) 131 (0xA000B111C222D333E444F55506661777 * 8 + 0b110), .mux8way16SelG
      0xA000#16 0xB111#16 0xC222#16 0xD333#16 0xE444#16 0xF555#16 0x0666#16 0x1777#16),
    (word (.sel .mux8way16) 131 (0xA000B111C222D333E444F55506661777 * 8 + 0b111), .mux8way16SelH
      0xA000#16 0xB111#16 0xC222#16 0xD333#16 0xE444#16 0xF555#16 0x0666#16 0x1777#16),
    (word (.sel .demux8way) 4 0b1000, .demux8waySelV0 true),
    (word (.sel .demux8way) 4 0b1001, .demux8waySelV1 true),
    (word (.sel .demux8way) 4 0b1010, .demux8waySelV2 true),
    (word (.sel .demux8way) 4 0b1011, .demux8waySelV3 true),
    (word (.sel .demux8way) 4 0b1100, .demux8waySelV4 true),
    (word (.sel .demux8way) 4 0b1101, .demux8waySelV5 true),
    (word (.sel .demux8way) 4 0b1110, .demux8waySelV6 true),
    (word (.sel .demux8way) 4 0b1111, .demux8waySelV7 true)] = true := by decide

/-! ## Evaluations -/

/-- V1 to V4: the truth tables of the two-input gates and of `not`, at `a` = 1, `b` = 0 and `a` = `b` = 1; V5, V6. -/
theorem test_scalar_gates : showsAll [
    (.nandGate true false, .bit true), (.nandGate true true, .bit false), (.andGate true false, .bit false),
    (.andGate true true, .bit true), (.orGate true false, .bit true), (.orGate false false, .bit false),
    (.xorGate true false, .bit true), (.xorGate true true, .bit false), (.notGate true, .bit false),
    (.notGate false, .bit true), (.muxBit false true false, .bit false), (.muxBit false true true, .bit true),
    (.demuxBit true false, .pair false true), (.demuxBit true true, .pair true false)] = true := by decide

/-- V10 to V24: one row per bus gate. -/
theorem test_bus_gates : showsAll [
    (.not4 0b1100#4, .bus4 0b0011#4), (.not8 0b11001010#8, .bus8 0b00110101#8), (.not16 0x1234#16, .bus16 0xEDCB#16),
    (.and4 0b1100#4 0b1010#4, .bus4 0b1000#4), (.and8 0b11001010#8 0b10100101#8, .bus8 0b10000000#8),
    (.and16 0x1234#16 0xABCD#16, .bus16 0x0204#16), (.or4 0b1100#4 0b1010#4, .bus4 0b1110#4),
    (.or8 0b11001010#8 0b10100101#8, .bus8 0b11101111#8), (.or16 0x1234#16 0xABCD#16, .bus16 0xBBFD#16),
    (.xor4 0b1100#4 0b1010#4, .bus4 0b0110#4), (.xor8 0b11001010#8 0b10100101#8, .bus8 0b01101111#8),
    (.xor16 0x1234#16 0xABCD#16, .bus16 0xB9F9#16), (.mux4 0b1100#4 0b1010#4 false, .bus4 0b1100#4),
    (.mux4 0b1100#4 0b1010#4 true, .bus4 0b1010#4), (.mux8 0b11001010#8 0b10100101#8 false, .bus8 0b11001010#8),
    (.mux8 0b11001010#8 0b10100101#8 true, .bus8 0b10100101#8), (.mux16 0x1234#16 0xABCD#16 false, .bus16 0x1234#16),
    (.mux16 0x1234#16 0xABCD#16 true, .bus16 0xABCD#16)] = true := by decide

/-- V30, V31: the reductions see a Bit at either end and in the middle. -/
theorem test_reductions : showsAll [
    (.or8way 0b00000000#8, .bit false), (.or8way 0b00000001#8, .bit true), (.or8way 0b10000000#8, .bit true),
    (.or8way 0b00010000#8, .bit true), (.and8way 0b01111111#8, .bit false), (.and8way 0b11111110#8, .bit false),
    (.and8way 0b11101111#8, .bit false), (.and8way 0b11111111#8, .bit true), (.or16way 0x0000#16, .bit false),
    (.or16way 0x0001#16, .bit true), (.or16way 0x8000#16, .bit true), (.or16way 0x0100#16, .bit true),
    (.or16way 0x0080#16, .bit true)] = true := by decide

/-- V32: index 0 of the selector has weight 2: `10` selects `c`. -/
theorem test_mux4way16 : showsAll [
    (.mux4way16 0xA000#16 0xB111#16 0xC222#16 0xD333#16 0b01#2, .bus16 0xB111#16),
    (.mux4way16 0xA000#16 0xB111#16 0xC222#16 0xD333#16 0b10#2, .bus16 0xC222#16)] = true := by decide

/-- V33: `011` selects `d`, `110` selects `g`. -/
theorem test_mux8way16 : showsAll [
    (.mux8way16 0xA000#16 0xB111#16 0xC222#16 0xD333#16 0xE444#16 0xF555#16 0x0666#16 0x1777#16 0b011#3,
      .bus16 0xD333#16),
    (.mux8way16 0xA000#16 0xB111#16 0xC222#16 0xD333#16 0xE444#16 0xF555#16 0x0666#16 0x1777#16 0b110#3,
      .bus16 0x0666#16)] = true := by decide

/-- V34, V35 in the default order. -/
theorem test_wide_demultiplexers_significance : showsAll [
    (.demux4way true 0b00#2, .bus4 0b0001#4), (.demux4way true 0b10#2, .bus4 0b0100#4),
    (.demux4way false 0b11#2, .bus4 0b0000#4), (.demux8way true 0b000#3, .bus8 0b00000001#8),
    (.demux8way true 0b110#3, .bus8 0b01000000#8), (.demux8way false 0b111#3, .bus8 0#8)] = true := by decide

/-- V34, V35 in the order `index`. -/
theorem test_wide_demultiplexers_index : showsAllIndex [
    (.demux4way true 0b00#2, .bus4 0b1000#4), (.demux4way true 0b10#2, .bus4 0b0010#4),
    (.demux4way false 0b11#2, .bus4 0b0000#4), (.demux8way true 0b000#3, .bus8 0b10000000#8),
    (.demux8way true 0b110#3, .bus8 0b00000010#8), (.demux8way false 0b111#3, .bus8 0#8)] = true := by decide

/-- The rows of the multiplexers, on the operands of V22 to V24, V32, V33. -/
theorem test_multiplexer_rows : showsAll [
    (.muxSelA false true, .bit false),
    (.muxSelB false true, .bit true),
    (.mux4SelA 0b1100#4 0b1010#4, .bus4 0b1100#4),
    (.mux4SelB 0b1100#4 0b1010#4, .bus4 0b1010#4),
    (.mux8SelA 0xCA#8 0xA5#8, .bus8 0xCA#8),
    (.mux8SelB 0xCA#8 0xA5#8, .bus8 0xA5#8),
    (.mux16SelA 0x1234#16 0xABCD#16, .bus16 0x1234#16),
    (.mux16SelB 0x1234#16 0xABCD#16, .bus16 0xABCD#16),
    (.mux4way16SelA 0xA000#16 0xB111#16 0xC222#16 0xD333#16, .bus16 0xA000#16),
    (.mux4way16SelB 0xA000#16 0xB111#16 0xC222#16 0xD333#16, .bus16 0xB111#16),
    (.mux4way16SelC 0xA000#16 0xB111#16 0xC222#16 0xD333#16, .bus16 0xC222#16),
    (.mux4way16SelD 0xA000#16 0xB111#16 0xC222#16 0xD333#16, .bus16 0xD333#16),
    (.mux8way16SelA
      0xA000#16 0xB111#16 0xC222#16 0xD333#16 0xE444#16 0xF555#16 0x0666#16 0x1777#16, .bus16 0xA000#16),
    (.mux8way16SelB
      0xA000#16 0xB111#16 0xC222#16 0xD333#16 0xE444#16 0xF555#16 0x0666#16 0x1777#16, .bus16 0xB111#16),
    (.mux8way16SelC
      0xA000#16 0xB111#16 0xC222#16 0xD333#16 0xE444#16 0xF555#16 0x0666#16 0x1777#16, .bus16 0xC222#16),
    (.mux8way16SelD
      0xA000#16 0xB111#16 0xC222#16 0xD333#16 0xE444#16 0xF555#16 0x0666#16 0x1777#16, .bus16 0xD333#16),
    (.mux8way16SelE
      0xA000#16 0xB111#16 0xC222#16 0xD333#16 0xE444#16 0xF555#16 0x0666#16 0x1777#16, .bus16 0xE444#16),
    (.mux8way16SelF
      0xA000#16 0xB111#16 0xC222#16 0xD333#16 0xE444#16 0xF555#16 0x0666#16 0x1777#16, .bus16 0xF555#16),
    (.mux8way16SelG
      0xA000#16 0xB111#16 0xC222#16 0xD333#16 0xE444#16 0xF555#16 0x0666#16 0x1777#16, .bus16 0x0666#16),
    (.mux8way16SelH
      0xA000#16 0xB111#16 0xC222#16 0xD333#16 0xE444#16 0xF555#16 0x0666#16 0x1777#16, .bus16 0x1777#16)] = true := by decide

/-- The rows of the demultiplexers, default order (table T57; V6, V34, V35). -/
theorem test_demultiplexer_rows_significance : showsAll [
    (.demuxSelOut1 true, .pair false true),
    (.demuxSelOut0 true, .pair true false),
    (.demux4waySelV0 true, .bus4 0b0001#4),
    (.demux4waySelV1 true, .bus4 0b0010#4),
    (.demux4waySelV2 true, .bus4 0b0100#4),
    (.demux4waySelV3 true, .bus4 0b1000#4),
    (.demux8waySelV0 true, .bus8 0b00000001#8),
    (.demux8waySelV1 true, .bus8 0b00000010#8),
    (.demux8waySelV2 true, .bus8 0b00000100#8),
    (.demux8waySelV3 true, .bus8 0b00001000#8),
    (.demux8waySelV4 true, .bus8 0b00010000#8),
    (.demux8waySelV5 true, .bus8 0b00100000#8),
    (.demux8waySelV6 true, .bus8 0b01000000#8),
    (.demux8waySelV7 true, .bus8 0b10000000#8)] = true := by decide

/-- The rows of the demultiplexers, order `index` (table T57; V6, V34, V35). -/
theorem test_demultiplexer_rows_index : showsAllIndex [
    (.demuxSelOut1 true, .pair false true),
    (.demuxSelOut0 true, .pair true false),
    (.demux4waySelV0 true, .bus4 0b1000#4),
    (.demux4waySelV1 true, .bus4 0b0100#4),
    (.demux4waySelV2 true, .bus4 0b0010#4),
    (.demux4waySelV3 true, .bus4 0b0001#4),
    (.demux8waySelV0 true, .bus8 0b10000000#8),
    (.demux8waySelV1 true, .bus8 0b01000000#8),
    (.demux8waySelV2 true, .bus8 0b00100000#8),
    (.demux8waySelV3 true, .bus8 0b00010000#8),
    (.demux8waySelV4 true, .bus8 0b00001000#8),
    (.demux8waySelV5 true, .bus8 0b00000100#8),
    (.demux8waySelV6 true, .bus8 0b00000010#8),
    (.demux8waySelV7 true, .bus8 0b00000001#8)] = true := by decide

/-- V40, V41: `[carry, sum]`. -/
theorem test_bit_adders : showsAll [
    (.halfAdder true true, .adder true false), (.halfAdder true false, .adder false true),
    (.fullAdder true true true, .adder true true), (.fullAdder false true true, .adder true false),
    (.fullAdder false false true, .adder false true)] = true := by decide

/-- V42: carries cross the nibble and the byte, and the last one is dropped. -/
theorem test_adders : showsAll [
    (.adder4 0b0111#4 0b0001#4, .bus4 0b1000#4), (.adder4 0b1111#4 0b1111#4, .bus4 0b1110#4),
    (.adder8 0xCA#8 0xA5#8, .bus8 0x6F#8), (.adder8 0x0F#8 0x01#8, .bus8 0x10#8),
    (.adder16 0x1234#16 0xABCD#16, .bus16 0xBE01#16), (.adder16 0x8000#16 0x8000#16, .bus16 0x0000#16)] = true := by decide

/-- V44. -/
theorem test_incrementers : showsAll [
    (.incrementer4 0b0111#4, .bus4 0b1000#4), (.incrementer4 0b1111#4, .bus4 0b0000#4),
    (.incrementer8 0x7F#8, .bus8 0x80#8), (.incrementer8 0xFF#8, .bus8 0x00#8),
    (.incrementer16 0x00FF#16, .bus16 0x0100#16), (.incrementer16 0xFFFF#16, .bus16 0x0000#16)] = true := by decide

/-- The cell `alu`: V52 (a negative difference) and V65 (the source's pass-through word, S18). -/
theorem test_alu : showsAll [
    (.alu 0x0003#16 0x0005#16 false true false false true true, .alu 0xFFFE#16 false true),
    (.alu 0x1234#16 0xABCD#16 false true true true false true, .alu 0x1234#16 false false)] = true := by decide

/-- The repertoire on pair A of spec/95_test_vectors.md section 2.6. -/
theorem test_repertoire_pair_a :
  let x := 0x0005#16
  let y := 0x0003#16
  showsAll [
    (.aluAnd x y, .alu 0x0001#16 false false),
    (.aluAdd x y, .alu 0x0008#16 false false),
    (.aluSubYX x y, .alu 0xFFFE#16 false true),
    (.aluX x y, .alu 0x0005#16 false false),
    (.aluNotX x y, .alu 0xFFFA#16 false true),
    (.aluDecX x y, .alu 0x0004#16 false false),
    (.aluNegX x y, .alu 0xFFFB#16 false true),
    (.aluSubXY x y, .alu 0x0002#16 false false),
    (.aluOr x y, .alu 0x0007#16 false false),
    (.aluIncX x y, .alu 0x0006#16 false false),
    (.aluZero x y, .alu 0x0000#16 true false),
    (.aluY x y, .alu 0x0003#16 false false),
    (.aluNotY x y, .alu 0xFFFC#16 false true),
    (.aluDecY x y, .alu 0x0002#16 false false),
    (.aluNegY x y, .alu 0xFFFD#16 false true),
    (.aluIncY x y, .alu 0x0004#16 false false),
    (.aluNeg1 x y, .alu 0xFFFF#16 false true),
    (.aluOne x y, .alu 0x0001#16 false false)] = true := by decide

/-- The repertoire on pair B of spec/95_test_vectors.md section 2.6. -/
theorem test_repertoire_pair_b :
  let x := 0x8000#16
  let y := 0x7FFF#16
  showsAll [
    (.aluAnd x y, .alu 0x0000#16 true false),
    (.aluAdd x y, .alu 0xFFFF#16 false true),
    (.aluSubYX x y, .alu 0xFFFF#16 false true),
    (.aluX x y, .alu 0x8000#16 false true),
    (.aluNotX x y, .alu 0x7FFF#16 false false),
    (.aluDecX x y, .alu 0x7FFF#16 false false),
    (.aluNegX x y, .alu 0x8000#16 false true),
    (.aluSubXY x y, .alu 0x0001#16 false false),
    (.aluOr x y, .alu 0xFFFF#16 false true),
    (.aluIncX x y, .alu 0x8001#16 false true),
    (.aluZero x y, .alu 0x0000#16 true false),
    (.aluY x y, .alu 0x7FFF#16 false false),
    (.aluNotY x y, .alu 0x8000#16 false true),
    (.aluDecY x y, .alu 0x7FFE#16 false false),
    (.aluNegY x y, .alu 0x8001#16 false true),
    (.aluIncY x y, .alu 0x8000#16 false true),
    (.aluNeg1 x y, .alu 0xFFFF#16 false true),
    (.aluOne x y, .alu 0x0001#16 false false)] = true := by decide

/-- The other control words on pair A of spec/95_test_vectors.md section 2.6. -/
theorem test_other_words_pair_a :
  let x := 0x0005#16
  let y := 0x0003#16
  showsAll [
    (.aluW000001 x y, .alu 0xFFFE#16 false true),
    (.aluW000011 x y, .alu 0xFFF7#16 false true),
    (.aluW000100 x y, .alu 0x0004#16 false false),
    (.aluW000101 x y, .alu 0xFFFB#16 false true),
    (.aluW000110 x y, .alu 0x0001#16 false false),
    (.aluW001000 x y, .alu 0x0000#16 true false),
    (.aluW001001 x y, .alu 0xFFFF#16 false true),
    (.aluW001010 x y, .alu 0x0005#16 false false),
    (.aluW001011 x y, .alu 0xFFFA#16 false true),
    (.aluW010000 x y, .alu 0x0002#16 false false),
    (.aluW010001 x y, .alu 0xFFFD#16 false true),
    (.aluW010010 x y, .alu 0xFFFD#16 false true),
    (.aluW010100 x y, .alu 0xFFF8#16 false true),
    (.aluW010110 x y, .alu 0xFFF6#16 false true),
    (.aluW010111 x y, .alu 0x0009#16 false false),
    (.aluW011000 x y, .alu 0x0000#16 true false),
    (.aluW011001 x y, .alu 0xFFFF#16 false true),
    (.aluW011010 x y, .alu 0xFFFA#16 false true),
    (.aluW011011 x y, .alu 0x0005#16 false false),
    (.aluW011100 x y, .alu 0xFFFA#16 false true),
    (.aluW011101 x y, .alu 0x0005#16 false false),
    (.aluW011110 x y, .alu 0xFFF9#16 false true),
    (.aluW100000 x y, .alu 0x0000#16 true false),
    (.aluW100001 x y, .alu 0xFFFF#16 false true),
    (.aluW100010 x y, .alu 0x0003#16 false false),
    (.aluW100011 x y, .alu 0xFFFC#16 false true),
    (.aluW100100 x y, .alu 0x0000#16 true false),
    (.aluW100101 x y, .alu 0xFFFF#16 false true),
    (.aluW100110 x y, .alu 0xFFFC#16 false true),
    (.aluW100111 x y, .alu 0x0003#16 false false),
    (.aluW101000 x y, .alu 0x0000#16 true false),
    (.aluW101001 x y, .alu 0xFFFF#16 false true),
    (.aluW101011 x y, .alu 0xFFFF#16 false true),
    (.aluW101100 x y, .alu 0x0000#16 true false),
    (.aluW101101 x y, .alu 0xFFFF#16 false true),
    (.aluW101110 x y, .alu 0xFFFF#16 false true),
    (.aluW101111 x y, .alu 0x0000#16 true false),
    (.aluW110100 x y, .alu 0xFFFC#16 false true),
    (.aluW110101 x y, .alu 0x0003#16 false false),
    (.aluW110110 x y, .alu 0xFFFB#16 false true),
    (.aluW111000 x y, .alu 0x0000#16 true false),
    (.aluW111001 x y, .alu 0xFFFF#16 false true),
    (.aluW111011 x y, .alu 0x0000#16 true false),
    (.aluW111100 x y, .alu 0xFFFF#16 false true),
    (.aluW111101 x y, .alu 0x0000#16 true false),
    (.aluW111110 x y, .alu 0xFFFE#16 false true)] = true := by decide

/-- The other control words on pair B of spec/95_test_vectors.md section 2.6. -/
theorem test_other_words_pair_b :
  let x := 0x8000#16
  let y := 0x7FFF#16
  showsAll [
    (.aluW000001 x y, .alu 0xFFFF#16 false true),
    (.aluW000011 x y, .alu 0x0000#16 true false),
    (.aluW000100 x y, .alu 0x8000#16 false true),
    (.aluW000101 x y, .alu 0x7FFF#16 false false),
    (.aluW000110 x y, .alu 0x0000#16 true false),
    (.aluW001000 x y, .alu 0x0000#16 true false),
    (.aluW001001 x y, .alu 0xFFFF#16 false true),
    (.aluW001010 x y, .alu 0x8000#16 false true),
    (.aluW001011 x y, .alu 0x7FFF#16 false false),
    (.aluW010000 x y, .alu 0x7FFF#16 false false),
    (.aluW010001 x y, .alu 0x8000#16 false true),
    (.aluW010010 x y, .alu 0xFFFE#16 false true),
    (.aluW010100 x y, .alu 0x0000#16 true false),
    (.aluW010110 x y, .alu 0xFFFF#16 false true),
    (.aluW010111 x y, .alu 0x0000#16 true false),
    (.aluW011000 x y, .alu 0x0000#16 true false),
    (.aluW011001 x y, .alu 0xFFFF#16 false true),
    (.aluW011010 x y, .alu 0x7FFF#16 false false),
    (.aluW011011 x y, .alu 0x8000#16 false true),
    (.aluW011100 x y, .alu 0x7FFF#16 false false),
    (.aluW011101 x y, .alu 0x8000#16 false true),
    (.aluW011110 x y, .alu 0x7FFE#16 false false),
    (.aluW100000 x y, .alu 0x0000#16 true false),
    (.aluW100001 x y, .alu 0xFFFF#16 false true),
    (.aluW100010 x y, .alu 0x7FFF#16 false false),
    (.aluW100011 x y, .alu 0x8000#16 false true),
    (.aluW100100 x y, .alu 0x0000#16 true false),
    (.aluW100101 x y, .alu 0xFFFF#16 false true),
    (.aluW100110 x y, .alu 0x8000#16 false true),
    (.aluW100111 x y, .alu 0x7FFF#16 false false),
    (.aluW101000 x y, .alu 0x0000#16 true false),
    (.aluW101001 x y, .alu 0xFFFF#16 false true),
    (.aluW101011 x y, .alu 0xFFFF#16 false true),
    (.aluW101100 x y, .alu 0x0000#16 true false),
    (.aluW101101 x y, .alu 0xFFFF#16 false true),
    (.aluW101110 x y, .alu 0xFFFF#16 false true),
    (.aluW101111 x y, .alu 0x0000#16 true false),
    (.aluW110100 x y, .alu 0x8000#16 false true),
    (.aluW110101 x y, .alu 0x7FFF#16 false false),
    (.aluW110110 x y, .alu 0x7FFF#16 false false),
    (.aluW111000 x y, .alu 0x0000#16 true false),
    (.aluW111001 x y, .alu 0xFFFF#16 false true),
    (.aluW111011 x y, .alu 0x0000#16 true false),
    (.aluW111100 x y, .alu 0xFFFF#16 false true),
    (.aluW111101 x y, .alu 0x0000#16 true false),
    (.aluW111110 x y, .alu 0xFFFE#16 false true)] = true := by decide

/-- `demux8way` as a network, the smallest wide one: `s` = `011` (V35), under both orders. -/
theorem test_network_of_demux8way :
    netOutputs .significance .demux8way [true, false, true, true] = [false, false, false, false, true, false, false, false] ∧
      netOutputs .index .demux8way [true, false, true, true] =
        [false, false, false, true, false, false, false, false] := by decide

/-- Program P1, its first three steps: `x - y` as `x + !y + 1`, each stage reading the one before it (R298). -/
theorem test_design_subtracts_in_three_steps :
    let x : Src := .whole (.lit (.bus .w16 0x0005#16))
    let y : Src := .whole (.lit (.bus .w16 0x0003#16))
    let ctl (digits : List Bit) : List Src := digits.map fun b => .whole (.lit (.bit b))
    Design.eval .significance [] [
      ⟨.alu, [x, y] ++ ctl [true, true, false, false, false, true]⟩,
      ⟨.alu, [x, .whole (.out 0 0)] ++ ctl [false, false, false, false, true, false]⟩,
      ⟨.alu, [.whole (.out 1 0), y] ++ ctl [false, true, true, true, true, true]⟩] = some [
        [.bus .w16 0xFFFC#16, .bit false, .bit true], [.bus .w16 0x0001#16, .bit false, .bit false],
        [.bus .w16 0x0002#16, .bit false, .bit false]] := by decide

/-- Wires alone: index 0 of `demux4way`, the halves of a bus, and wires put together as another type (R10, R12, R13). -/
theorem test_design_wires :
    let vs : List (List Signal) := [[.bus .w4 0b1000#4], [.bus .w16 0x1234#16]]
    Src.value vs (.bundle .bit (.index (.out 0 0) 0)) = some (.bit true) ∧
      Src.value vs (.bundle (.bus .w8) (.slice (.out 1 0) 8 15)) = some (.bus .w8 0x34#8) ∧
      Src.value vs (.bundle (.bus .w16) (.cat (.slice (.out 1 0) 8 15) (.slice (.out 1 0) 0 7))) = some (.bus .w16 0x3412#16) ∧
      Src.value vs (.bundle (.sel .k2) (.cat (.index (.out 0 0) 0) (.bit (.lit (.bit false))))) = some (.sel .k2 0b10#2) := by
  decide

/-! ## Witnesses: states and operands that meet the hypotheses of the statements -/

/-- A state with one request, `nand(1,0)`, and outputs from before. -/
def oneRequest : State := ⟨.index, [⟨.call .nandGate, 0b10#2⟩], some (.bit false)⟩

theorem witness_StepRunsTheDecodedRequest :
    oneRequest.requests = ⟨.call .nandGate, 0b10#2⟩ :: [] ∧
      decode (⟨.call .nandGate, 0b10#2⟩ : Request).vector = .ok (.nandGate true false) := by decide

theorem witness_StepWithNothingPresentedChangesNothing : State.reset.requests = [] := by decide

/-- A vector of the right length and one a Bit short. -/
theorem witness_AWrongWidthIsRefusedWhenBuiltAndNeverWhenItRuns :
    (⟨.call .nandGate, [true, false]⟩ : InputVector).bits.length = (Form.call .nandGate).width ∧
      (⟨.call .nandGate, [true]⟩ : InputVector).bits.length ≠ (Form.call .nandGate).width := by decide

/-- A state and an instruction with a next state (EveryInstructionChangesOnlyTheOutputs,
OutputsHaveTheTypesOfThePortTable). -/
theorem witness_exec_answers_next : exec (.not4 0b1100#4) oneRequest = .next (oneRequest.withOutputs (.bus4 0b0011#4)) := rfl

/-- Two different states with the same parameter (OutputsDoNotDependOnTheState). -/
theorem witness_OutputsDoNotDependOnTheState :
    oneRequest.wideDemuxOrder = (State.idle .index).wideDemuxOrder ∧ oneRequest ≠ State.idle .index := by decide

theorem witness_OnlyWideDemultiplexersDependOnTheOrder :
    (encode (.demuxBit true true)).form.cell ≠ .demux4way ∧ (encode (.demuxBit true true)).form.cell ≠ .demux8way := by decide

/-- A state with a pending request and outputs, that meets the invariant and has a next state (StepKeepsTheInvariant,
StepAlwaysAnswersANextState). -/
theorem witness_Inv : oneRequest.Inv ∧ step oneRequest = .next ⟨.index, [], some (.bit true)⟩ :=
  ⟨fun o h => by cases h; rfl, rfl⟩

theorem witness_ARunShowsTheLastEvaluationAlone :
    (⟨.index, [⟨.call .notGate, 1#1⟩] ++ [⟨.call .nandGate, 0b10#2⟩], none⟩ : State).requests =
        [⟨.call .notGate, 1#1⟩] ++ [⟨.call .nandGate, 0b10#2⟩] ∧
      decode (⟨.call .nandGate, 0b10#2⟩ : Request).vector = .ok (.nandGate true false) := by decide

theorem witness_EncodeOfDecodeIsTheRequest : decode ⟨.sel .muxBit, [true, false, true]⟩ = .ok (.muxSelB true false) := by decide

/-- A word of six Bits, the last word of one byte, and a word that does not fit. -/
theorem witness_TableWordsAreControlWords :
    decodeTableWord 8 0b000010 = some (.aluAdd 0#16 0#16) ∧ (0xFF : Nat) < 256 ∧ 0b111111#6 = BitVec.ofNat 6 0xFF ∧
      decodeTableWord 8 0xFF = some (.aluOne 0#16 3#16) ∧ decodeTableWord 40 (2 ^ 38) = none := by decide

/-- Widths, indices and a reading (ReadingsOfABus, BusGateCornerCases, AdditionLaws): `n` = 1 is the boundary, and at the top
index the constant `ONE_1` has its Bit. -/
theorem witness_widths : 0 < 1 ∧ 0 < 16 ∧ bitAt (Config.oneBus 1) 0 = true ∧ bitAt (Config.oneBus 16) 15 = true ∧
    (val (0x8000#16) : Int) = (-32768) % 2 ^ 16 ∧ sval (0x8000#16) = -32768 := by decide

/-- Both values of the parameter, and two selector values with a driven output (Demux4wayDrivesOneOutput,
Demux8wayDrivesOneOutput). -/
theorem witness_demux_orders :
    State.reset.wideDemuxOrder = .significance ∧ oneRequest.wideDemuxOrder = .index ∧ (0b00#2 : Selector 2) ≠ 0b11#2 ∧
      bitAt (demux4wayOf .significance true 0b00#2) 3 = true ∧ bitAt (demux4wayOf .index true 0b11#2) 3 = true := by decide

/-- Two evaluations with different inputs and the same result (StatusOutputsDependOnTheResultAlone): `5 - 3` and `1 + 1`. -/
theorem witness_StatusOutputsDependOnTheResultAlone :
    Gives (.alu 5#16 3#16 false true false false true true) oneRequest (.alu 2#16 false false) ∧
      Gives (.alu 1#16 1#16 false false false false true false) State.reset (.alu 2#16 false false) := ⟨rfl, rfl⟩

/-- An exact difference that fits, and one that does not (StatusOutcomes). -/
theorem witness_StatusOutcomes :
    (-32768 ≤ sval (3#16) - sval (5#16) ∧ sval (3#16) - sval (5#16) ≤ 32767) ∧
      ¬ (-32768 ≤ sval (0x8000#16) - sval (1#16)) := by decide

theorem witness_CallsAreBuiltExactlyWhenTypesMatch :
    (⟨.and4, [.bus .w4 0b1100#4, .bus .w4 0b1010#4]⟩ : Call).toInstr = .ok (.and4 0b1100#4 0b1010#4) := by decide

/-- A design of two stages the check accepts: `not(nand(1,1))`. -/
theorem witness_CheckedDesignsEvaluate :
    Design.check [] [⟨.nandGate, [.whole (.lit (.bit true)), .whole (.lit (.bit true))]⟩,
      ⟨.notGate, [.whole (.out 0 0)]⟩] = some [[.bit], [.bit]] := by decide

/-- A design the check refuses: a `Bus 8` into `not4`. -/
theorem witness_RefusedDesignsHaveNoValue : Design.check [] [⟨.not4, [.whole (.lit (.bus .w8 0#8))]⟩] = none := by decide

theorem witness_NetworksComputeTheTruthFunctions : [true, false, true].length = Cell.width .fullAdder := by decide

/-- Two different words of one class, and a word of another class (ControlWordsWithOneFunction). -/
theorem witness_ControlWordsWithOneFunction :
    (∃ l ∈ controlWordClasses, (0b001100#6) ∈ l ∧ (0b011101#6) ∈ l) ∧
      ¬ ∃ l ∈ controlWordClasses, (0b001100#6) ∈ l ∧ (0b000010#6) ∈ l := by decide

end Sys2Proof.Tests
end

section
/-! SUPPORT. The machine, requests and readings of a bus: proofs of the scope family (spec/00_scope.md). -/

namespace Sys2Proof

/-- A written vector is well formed exactly when it has the length of its form's input vector. -/
theorem InputVector.wf_iff (v : InputVector) : v.wf = true ↔ v.bits.length = v.form.width := by
  simp [InputVector.wf]

theorem InputVector.wf_eq_false_iff (v : InputVector) : v.wf = false ↔ v.bits.length ≠ v.form.width := by
  simp [InputVector.wf]

namespace Machine

/-- Every instruction completes, and puts some outputs on the ports (R3, R8). -/
theorem exec_gives (i : Instr) (s : State) : ∃ o, Gives i s o := by
  obtain ⟨o, ho⟩ := exec_drives i s
  exact ⟨o, ho.trans (drive_eq o s)⟩

/-- What an instruction leaves on the ports is what it gives. -/
theorem outputsOf_of_gives {i : Instr} {s : State} {o : Outputs} (h : Gives i s o) : outputsOf i s = some o := by
  rw [outputsOf, h]

/-- No step stops: it always answers a next state (R270, R278). -/
theorem step_next (s : State) : ∃ t, step s = .next t := by
  obtain ⟨-, h⟩ | ⟨r, rs, -, h⟩ := step_cases s
  · exact ⟨s, h⟩
  · obtain ⟨o, ho⟩ := exec_gives r.instr (s.withRequests rs)
    exact ⟨_, h.trans ho⟩

/-- An instruction of any cell but the wide demultiplexers puts the same outputs on the ports in every state (U5): no other
meaning reads the parameter. -/
theorem exec_drives_same_outputs (i : Instr) (h4 : (encode i).form.cell ≠ .demux4way)
    (h8 : (encode i).form.cell ≠ .demux8way) : ∃ o, ∀ s, exec i s = drive o s := by
  cases i
  case demux4way | demux4waySelV0 | demux4waySelV1 | demux4waySelV2 | demux4waySelV3 => exact absurd rfl h4
  case demux8way | demux8waySelV0 | demux8waySelV1 | demux8waySelV2 | demux8waySelV3 | demux8waySelV4 | demux8waySelV5 |
      demux8waySelV6 | demux8waySelV7 => exact absurd rfl h8
  all_goals exact ⟨_, fun _ => rfl⟩

end Machine

end Sys2Proof

open Sys2Proof Sys2Proof.Machine

/-- Settles O2: the vector of a request decodes to the instruction a step makes of it. -/
theorem stepRunsTheDecodedRequest : Obligations.StepRunsTheDecodedRequest := by
  intro s r rs i hs hd
  have hi : r.instr = i := Except.ok.inj ((decode_vector r).symm.trans hd)
  obtain ⟨hn, -⟩ | ⟨r', rs', hr, h⟩ := step_cases s
  · simp [hs] at hn
  · obtain ⟨rfl, rfl⟩ : r = r' ∧ rs = rs' := by simpa [hs] using hr
    rw [h, hi]
    rfl

/-- Settles O4: building answers one of two ways by the length alone, and every step has a next state. -/
theorem aWrongWidthIsRefusedWhenBuiltAndNeverWhenItRuns :
    Obligations.AWrongWidthIsRefusedWhenBuiltAndNeverWhenItRuns := by
  refine ⟨fun v hv => ?_, fun v hv => ?_, fun s x hx => ?_, fun s f hf => ?_⟩
  · have hw := v.wf_iff.2 hv
    obtain ⟨-, hb⟩ | ⟨hn, -⟩ := build_cases v
    · exact ⟨_, hb, vector_of_wf v hw⟩
    · simp [hw] at hn
  · have hw := v.wf_eq_false_iff.2 hv
    obtain ⟨ho, -⟩ | ⟨-, hb⟩ := build_cases v
    · simp [hw] at ho
    · exact hb
  · obtain ⟨t, ht⟩ := step_next s
    simp [ht] at hx
  · obtain ⟨t, ht⟩ := step_next s
    simp [ht] at hf

/-- Settles O5. -/
theorem everyInstructionAnswersANextState : Obligations.EveryInstructionAnswersANextState := exec_gives

/-- Settles O6: what an instruction gives is the state before with other outputs. -/
theorem everyInstructionChangesOnlyTheOutputs : Obligations.EveryInstructionChangesOnlyTheOutputs := by
  intro i s t ht
  obtain ⟨o, ho⟩ := exec_gives i s
  obtain rfl : { s with outputs := some o } = t := Host.Outcome.next.inj (ho.symm.trans ht)
  exact ⟨rfl, rfl⟩

/-- Settles O9: the outputs of every other cell do not depend on the state at all. -/
theorem onlyWideDemultiplexersDependOnTheOrder : Obligations.OnlyWideDemultiplexersDependOnTheOrder := by
  intro i s t h4 h8
  obtain ⟨o, ho⟩ := exec_drives_same_outputs i h4 h8
  rw [outputsOf_of_gives (ho s), outputsOf_of_gives (ho t)]

/-- Settles O17: decoding answers one of two ways by the length alone. -/
theorem everyVectorOfTheRightWidthDecodes : Obligations.EveryVectorOfTheRightWidthDecodes := by
  refine ⟨fun v => ?_, fun r => ⟨r.vector.wf_iff.1 (vector_wf r), decode_vector r⟩⟩
  rw [← v.wf_iff]
  obtain ⟨hw, hd⟩ | ⟨hw, hd⟩ := decode_cases v
  · simp [hw, hd]
  · simp [hw, hd]
end

section
/-! SUPPORT. The readings of a bus (spec/00_scope.md R11). -/

namespace Sys2Proof.Machine

/-- The unsigned reading of a list of Bits, as the sum R11 writes. -/
theorem listVal_eq_sum (l : List Bit) :
    listVal l = ((List.range l.length).map fun i => (l.getD i false).toNat * 2 ^ (l.length - 1 - i)).sum := by
  induction l with
  | nil => rfl
  | cons b l ih =>
    simp only [listVal, ih, List.length_cons, List.range_succ_eq_map, List.map_cons, List.map_map, List.sum_cons,
      Function.comp_def, Nat.succ_eq_add_one, List.getD_cons_zero, List.getD_cons_succ, Nat.add_sub_cancel, Nat.sub_zero,
      Nat.sub_sub, Nat.add_comm 1]

/-- `val(b)` is the sum of `b[i]·2^(n-1-i)` (R11). -/
theorem val_eq_sum {n : Nat} (b : Bus n) :
    val b = ((List.range n).map fun i => (bitAt b i).toNat * 2 ^ (n - 1 - i)).sum := by
  rw [val, ← listVal_bitsOf, listVal_eq_sum]
  simp only [length_bitsOf, getD_bitsOf]

/-- `sval(b)` is `val(b)`, less `2^n` when `b[0]` is 1 (R11). -/
theorem sval_eq_val {n : Nat} (b : Bus n) : sval b = if bitAt b 0 then (val b : Int) - 2 ^ n else (val b : Int) := by
  rw [sval, BitVec.toInt_eq_msb_cond, BitVec.msb_eq_getMsbD_zero]
  push_cast
  rfl

/-- `busN(v)` is the one bus with the reading `v mod 2^n` (R11). -/
theorem val_eq_emod_iff {n : Nat} (b : Bus n) (v : Int) : (val b : Int) = v % 2 ^ n ↔ b = busN n v := by
  have hv : (val (busN n v) : Int) = v % 2 ^ n := by
    rw [val, BitVec.toNat_ofInt, Int.toNat_of_nonneg (Int.emod_nonneg _ (by positivity))]
    push_cast
    rfl
  rw [← hv, Nat.cast_inj, BitVec.toNat_inj]

/-- `ONES_n` is `busN(2^n - 1)` (R11). -/
theorem onesBus_eq_busN (n : Nat) : Config.onesBus n = busN n (2 ^ n - 1) := by
  refine (val_eq_emod_iff _ _).1 ?_
  have hpos : (0 : Int) < 2 ^ n := by positivity
  rw [Int.emod_eq_of_lt (by omega) (by omega), val, BitVec.toNat_allOnes, Nat.cast_sub Nat.one_le_two_pow]
  push_cast
  rfl

end Sys2Proof.Machine

open Sys2Proof Sys2Proof.Machine

/-- Settles O19: each reading by its own lemma, the constants by their Bits. -/
theorem readingsOfABus : Obligations.ReadingsOfABus := by
  intro n hn
  refine ⟨val_eq_sum, sval_eq_val, val_eq_emod_iff, (BitVec.ofInt_ofNat n 0).symm, (BitVec.ofInt_ofNat n 1).symm,
    onesBus_eq_busN n, fun i _ => BitVec.getMsbD_zero, fun i _ => ?_, fun i hi => ?_, ?_⟩
  · rw [bitAt, BitVec.getMsbD_one, decide_eq_true hn, Bool.and_true]
  · rw [bitAt, BitVec.getMsbD_allOnes, decide_eq_true hi]
  · rw [sval, BitVec.toInt_allOnes, if_pos hn]
end

section
/-! SUPPORT. Calls and designs: an input vector as its ports, and the width check as the types of the evaluation. -/

namespace Sys2Proof

/-! ## An input vector is its ports side by side (R65) -/

/-- Take a signal of a type off the front of a vector. -/
def takeSignal (t : SigType) (v : List Bit) : Signal × List Bit :=
  match t with
  | .bit => (.bit (takeBit v).1, (takeBit v).2)
  | .bus w => (.bus w (takeBus w.size v).1, (takeBus w.size v).2)
  | .sel k => (.sel k (takeBus k.size v).1, (takeBus k.size v).2)
  | .pair => (.pair (takeBit v).1 (takeBit (takeBit v).2).1, (takeBit (takeBit v).2).2)

/-- Take signals of a list of types off the front of a vector, one after the other. -/
def takeSignals : List SigType → List Bit → List Signal
  | [], _ => []
  | t :: ts, v => (takeSignal t v).1 :: takeSignals ts (takeSignal t v).2

theorem takeBit_append {v : List Bit} (h : 1 ≤ v.length) : (takeBit v).1 :: (takeBit v).2 = v := by
  obtain ⟨b, u, rfl⟩ := List.exists_cons_of_length_pos h
  rfl

theorem takeBus_append {n : Nat} {v : List Bit} (h : n ≤ v.length) : bitsOf (takeBus n v).1 ++ (takeBus n v).2 = v := by
  rw [takeBus, bitsOf_ofBits n v h, List.take_append_drop]

/-- Nothing is lost when a signal is taken off a vector that is long enough. -/
theorem takeSignal_append {t : SigType} {v : List Bit} (h : t.width ≤ v.length) :
    (takeSignal t v).1.bits ++ (takeSignal t v).2 = v := by
  cases t with
  | bit => exact takeBit_append h
  | bus w => exact takeBus_append h
  | sel k => exact takeBus_append h
  | pair =>
    rcases v with _ | ⟨a, _ | ⟨b, u⟩⟩
    · simp [SigType.width] at h
    · simp [SigType.width] at h
    · rfl

/-- The signals taken off a vector of exactly their length carry its Bits. -/
theorem bits_takeSignals {ts : List SigType} {v : List Bit} (h : v.length = (ts.map SigType.width).sum) :
    (takeSignals ts v).flatMap Signal.bits = v := by
  induction ts generalizing v with
  | nil => exact (List.length_eq_zero_iff.1 h).symm
  | cons t ts ih =>
    rw [List.map_cons, List.sum_cons] at h
    have happ := takeSignal_append (t := t) (v := v) (by omega)
    have hlen : (takeSignal t v).2.length = (ts.map SigType.width).sum := by
      have hb : (takeSignal t v).1.bits.length = t.width := by cases t <;> simp [takeSignal, Signal.bits, SigType.width]
      have := congrArg List.length happ
      rw [List.length_append] at this
      omega
    rw [takeSignals, List.flatMap_cons, ih hlen, happ]

/-- The call decoded from a vector has the signals of its ports, taken off the vector in port order. -/
theorem encode_decodeCell (c : Cell) (v : List Bit) :
    encode (decodeCell c v) = ⟨.call c, (takeSignals c.inputTypes v).flatMap Signal.bits⟩ := by
  cases c <;> simp [decodeCell, encode, takeSignals, takeSignal, Cell.inputTypes, Cell.inputs, Signal.bits]

/-- So decoding and encoding a vector of the right length gives the vector, Bit for Bit. -/
theorem encode_decodeCell_of_length {c : Cell} {v : List Bit} (h : v.length = c.width) :
    encode (decodeCell c v) = ⟨.call c, v⟩ := by
  rw [encode_decodeCell, bits_takeSignals h]

theorem length_bits (x : Signal) : x.bits.length = x.ty.width := by
  cases x <;> simp [Signal.bits, Signal.ty, SigType.width]

/-- Arguments with the types of the ports are a vector of the right length. -/
theorem length_bits_of_types {c : Cell} {xs : List Signal} (h : xs.map Signal.ty = c.inputTypes) :
    (xs.flatMap Signal.bits).length = c.width := by
  rw [Cell.width, ← h, List.map_map, List.length_flatMap]
  exact congrArg List.sum (List.map_congr_left fun x _ => length_bits x)

namespace Machine

/-! ## The width check foretells the types of the outputs -/

/-- Every instruction shows the ports of its cell, with their types (table T29). -/
theorem exec_gives_outputTypes (i : Instr) (s : State) :
    ∃ o, Gives i s o ∧ o.signals.map Signal.ty = (encode i).form.cell.outputTypes := by
  cases i <;> exact ⟨_, rfl, rfl⟩

/-- The types of the outputs of a call, where it has a value. -/
theorem types_evalCall (order : WideDemuxOrder) (k : Call) :
    (evalCall order k).map (List.map Signal.ty) =
      if k.args.map Signal.ty = k.cell.inputTypes then some k.cell.outputTypes else none := by
  obtain ⟨ht, hk⟩ | ⟨ht, e, hk⟩ := toInstr_cases k
  · obtain ⟨o, ho, hty⟩ := exec_gives_outputTypes (decodeCell k.cell (k.args.flatMap Signal.bits)) (State.idle order)
    rw [encode_decodeCell] at hty
    rw [Gives] at ho
    have hev : evalCall order k = some o.signals := by simp only [evalCall, hk, ho, Option.map_some]
    rw [hev, if_pos ht]
    exact congrArg some hty
  · rw [if_neg ht, evalCall, hk]
    rfl

/-- The check of a stage answers the types of the stage's outputs, and nothing where the stage has no value. -/
theorem stageCheck_eq_types {Γ : List (List SigType)} {vs : List (List Signal)}
    (h : vs.map (fun os => os.map Signal.ty) = Γ) (order : WideDemuxOrder) (g : Stage) :
    g.check Γ = (Stage.eval order vs g).map (List.map Signal.ty) := by
  rw [Stage.check, Stage.eval, srcTypes_eq_values h]
  cases Src.values vs g.args with
  | none => rfl
  | some us => exact (types_evalCall order ⟨g.cell, us⟩).symm

/-- The check of a design answers the types of the outputs of every stage, and nothing where the design has no value. -/
theorem designCheck_eq_types (d : Design) {Γ : List (List SigType)} {vs : List (List Signal)}
    (h : vs.map (fun os => os.map Signal.ty) = Γ) (order : WideDemuxOrder) :
    Design.check Γ d = (Design.eval order vs d).map fun ws => ws.map fun os => os.map Signal.ty := by
  induction d generalizing Γ vs with
  | nil => exact congrArg some h.symm
  | cons g d ih =>
    rw [Design.check, Design.eval, stageCheck_eq_types h order]
    cases Stage.eval order vs g with
    | none => rfl
    | some os => exact ih (by simp [h])

end Machine

end Sys2Proof

open Sys2Proof Sys2Proof.Machine

/-- Settles O53: building has two answers, and the built call is decoded from a vector of the right length. -/
theorem callsAreBuiltExactlyWhenTypesMatch : Obligations.CallsAreBuiltExactlyWhenTypesMatch := by
  refine ⟨fun k => ?_, fun k i hi => ?_⟩
  · obtain ⟨ht, hk⟩ | ⟨ht, e, hk⟩ := toInstr_cases k
    · simp [hk, ht]
    · simp [hk, ht]
  · obtain ⟨ht, hk⟩ | ⟨-, e, hk⟩ := toInstr_cases k
    · obtain rfl := Except.ok.inj (hk.symm.trans hi)
      exact encode_decodeCell_of_length (length_bits_of_types ht)
    · cases hk.symm.trans hi

/-- Settles O55: the check of a design is the types of its evaluation, so where it answers there is a value. -/
theorem checkedDesignsEvaluate : Obligations.CheckedDesignsEvaluate := by
  intro d Γ order hΓ
  rw [designCheck_eq_types d (Γ := []) (vs := []) rfl order] at hΓ
  exact Option.map_eq_some_iff.1 hΓ

/-- Settles O56: the check of a design is the types of its evaluation, so where it refuses there is no value. -/
theorem refusedDesignsHaveNoValue : Obligations.RefusedDesignsHaveNoValue := by
  intro d order hd
  rw [designCheck_eq_types d (Γ := []) (vs := []) rfl order] at hd
  exact Option.map_eq_none_iff.1 hd
end

section
/-! SUPPORT. Networks of `nand` cells: the construction of every cell, started on the network without gates, computes what
the evaluation of that cell shows (R71). -/

namespace Sys2Proof

/-! ## The ports of an input vector, by their offsets -/

theorem takeBit_eq (v : List Bit) : takeBit v = (v.getD 0 false, v.drop 1) := by
  cases v <;> rfl

theorem takeBus_eq (n : Nat) (v : List Bit) : takeBus n v = (ofBits n v, v.drop n) := rfl

theorem getD_drop (v : List Bit) (off i : Nat) : (v.drop off).getD i false = v.getD (off + i) false := by
  simp [List.getD_eq_getElem?_getD]

namespace Machine

/-- The Bit at index `i` of a bundle made from Bits is element `i`. -/
theorem bitAt_ofBits {n i : Nat} (h : i < n) (v : List Bit) : bitAt (ofBits n v) i = v.getD i false := by
  induction n generalizing i v with
  | zero => omega
  | succ n ih =>
    cases v with
    | nil => cases i with
      | zero => exact bitAt_cons_zero ..
      | succ i => rw [ofBits, bitAt_cons_succ, ih (by omega)]; rfl
    | cons b v => cases i with
      | zero => exact bitAt_cons_zero ..
      | succ i => rw [ofBits, bitAt_cons_succ, ih (by omega), List.getD_cons_succ]

variable {v : List Bit} {width : Nat} {n : Net}

/-- The input wires at an offset carry the bus that decoding reads there. -/
theorem holdsBus_inputWires {off w : Nat} (h : off + w ≤ width := by decide) :
    Net.HoldsBus v width n (inputWires off w) (ofBits w (v.drop off)) := by
  rw [Net.HoldsBus, bitsOf_eq_map, inputWires, List.forall₂_map_left_iff, List.forall₂_map_right_iff, List.forall₂_same]
  intro i hi
  have hi := List.mem_range.1 hi
  rw [bitAt_ofBits hi, getD_drop]
  exact holds_input (by omega)

/-- So does the wire of one Bit of that bus. -/
theorem holds_inputBit {off w i : Nat} (hi : i < w := by decide) (h : off + i < width := by decide) :
    Net.Holds v width n (.input (off + i)) (bitAt (ofBits w (v.drop off)) i) := by
  rw [bitAt_ofBits hi, getD_drop]
  exact holds_input h

/-- An input wire carries the Bit of the vector at its index. -/
theorem holds_inputWire {i : Nat} (h : i < width := by decide) : Net.Holds v width n (.input i) (v.getD i false) :=
  holds_input h

/-! ## The wide cells that are trees -/

theorem or8wayS_holds {as : List Wire} {a : Bus 8} (h : n.wf width = true) (ha : Net.HoldsBus v width n as a) :
    Built v width (tree8S orS as) n fun m w => Net.Holds v width m w (or8wayOf a) := by
  rw [Net.HoldsBus, bitsOf_eq_map] at ha
  refine (tree8S_built orS_built h ha).imp fun m w _ hw => ?_
  simpa [or8wayOf, anyBit, List.range, List.range.loop, orOf, Bool.or_assoc] using hw

theorem and8wayS_holds {as : List Wire} {a : Bus 8} (h : n.wf width = true) (ha : Net.HoldsBus v width n as a) :
    Built v width (tree8S andS as) n fun m w => Net.Holds v width m w (and8wayOf a) := by
  rw [Net.HoldsBus, bitsOf_eq_map] at ha
  refine (tree8S_built andS_built h ha).imp fun m w _ hw => ?_
  simpa [and8wayOf, allBits, List.range, List.range.loop, andOf, Bool.and_assoc] using hw

/-- The four inputs of `mux4way16` by a tree of two-way multiplexers (D8). -/
theorem mux4way16Of_eq_tree (a b c d : Bus 16) (sel : Selector 2) :
    mux4way16Of a b c d sel = muxBusOf (muxBusOf a b (bitAt sel 1)) (muxBusOf c d (bitAt sel 1)) (bitAt sel 0) := by
  unfold mux4way16Of
  cases bitAt sel 0 <;> cases bitAt sel 1 <;> rfl

/-- The eight inputs of `mux8way16` by a tree of two-way multiplexers (D8). -/
theorem mux8way16Of_eq_tree (a b c d e f g k : Bus 16) (sel : Selector 3) :
    mux8way16Of a b c d e f g k sel =
      muxBusOf (muxBusOf (muxBusOf a b (bitAt sel 2)) (muxBusOf c d (bitAt sel 2)) (bitAt sel 1))
        (muxBusOf (muxBusOf e f (bitAt sel 2)) (muxBusOf g k (bitAt sel 2)) (bitAt sel 1)) (bitAt sel 0) := by
  unfold mux8way16Of
  cases bitAt sel 0 <;> cases bitAt sel 1 <;> cases bitAt sel 2 <;> rfl

/-- The leaves of the tree of three `demux` cells, in either order, are the outputs of `demux4way` (D5, D6). -/
theorem bitsOf_demux4wayOf (order : WideDemuxOrder) (i : Bit) (sel : Selector 2) :
    bitsOf (demux4wayOf order i sel) = inOrder order
      [i && bitAt sel 0 && bitAt sel 1, i && bitAt sel 0 && !bitAt sel 1,
        i && !bitAt sel 0 && bitAt sel 1, i && !bitAt sel 0 && !bitAt sel 1] := by
  cases order <;> cases i <;> decide +revert

/-- The leaves of the tree of seven `demux` cells, in either order, are the outputs of `demux8way` (D5, D6). -/
theorem bitsOf_demux8wayOf (order : WideDemuxOrder) (i : Bit) (sel : Selector 3) :
    bitsOf (demux8wayOf order i sel) = inOrder order
      ([i && bitAt sel 0 && bitAt sel 1 && bitAt sel 2, i && bitAt sel 0 && bitAt sel 1 && !bitAt sel 2,
          i && bitAt sel 0 && !bitAt sel 1 && bitAt sel 2, i && bitAt sel 0 && !bitAt sel 1 && !bitAt sel 2] ++
        [i && !bitAt sel 0 && bitAt sel 1 && bitAt sel 2, i && !bitAt sel 0 && bitAt sel 1 && !bitAt sel 2,
          i && !bitAt sel 0 && !bitAt sel 1 && bitAt sel 2, i && !bitAt sel 0 && !bitAt sel 1 && !bitAt sel 2]) := by
  cases order <;> cases i <;> decide +revert

theorem orderLeaves_holds (order : WideDemuxOrder) {ws : List Wire} {bs : List Bit}
    (h : List.Forall₂ (Net.Holds v width n) ws bs) :
    List.Forall₂ (Net.Holds v width n) (orderLeaves order ws) (inOrder order bs) := by
  cases order with
  | significance => exact h
  | index => exact List.rel_reverse h

theorem demux4wayS_holds (order : WideDemuxOrder) {i s0 s1 : Wire} {vi : Bit} {sel : Selector 2} (h : n.wf width = true)
    (hi : Net.Holds v width n i vi) (h0 : Net.Holds v width n s0 (bitAt sel 0))
    (h1 : Net.Holds v width n s1 (bitAt sel 1)) :
    Built v width (do pure (orderLeaves order (← demux4wayTreeS i s0 s1))) n fun m ws =>
      Net.HoldsBus v width m ws (demux4wayOf order vi sel) := by
  simp only [Net.HoldsBus, bitsOf_demux4wayOf]
  exact (demux4wayTreeS_built h hi h0 h1).bind fun _ _ e hw => Built.pure e.wf (orderLeaves_holds order hw)

theorem demux8wayS_holds (order : WideDemuxOrder) {i s0 s1 s2 : Wire} {vi : Bit} {sel : Selector 3}
    (h : n.wf width = true) (hi : Net.Holds v width n i vi) (h0 : Net.Holds v width n s0 (bitAt sel 0))
    (h1 : Net.Holds v width n s1 (bitAt sel 1)) (h2 : Net.Holds v width n s2 (bitAt sel 2)) :
    Built v width (do pure (orderLeaves order (← demux8wayTreeS i s0 s1 s2))) n fun m ws =>
      Net.HoldsBus v width m ws (demux8wayOf order vi sel) := by
  simp only [Net.HoldsBus, bitsOf_demux8wayOf]
  exact (demux8wayTreeS_built h hi h0 h1 h2).bind fun _ _ e hw => Built.pure e.wf (orderLeaves_holds order hw)

theorem incrementerS_holds {w : Nat} {as : List Wire} {a : Bus w} (h : n.wf width = true)
    (ha : Net.HoldsBus v width n as a) :
    Built v width (incrementerS w as) n fun m ws => Net.HoldsBus v width m ws (incrementerOf a) :=
  adderS_holds h ha (holdsBus_tieBus _)

/-! ## From the wires of a construction to the ports of an evaluation -/

/-- The wires carry the Bits on the output ports, in port order, index 0 first. -/
def Net.HoldsOutputs (inp : List Bit) (width : Nat) (n : Net) (ws : List Wire) (o : Outputs) : Prop :=
  List.Forall₂ (Net.Holds inp width n) ws (o.signals.flatMap Signal.bits)

theorem outBit_built {b : Build Wire} {x : Bit} (hb : Built v width b n fun m w => Net.Holds v width m w x) :
    Built v width (do pure [← b]) n fun m ws => Net.HoldsOutputs v width m ws (.bit x) :=
  hb.bind fun _ _ e hw => Built.pure e.wf (.cons hw .nil)

theorem outPair_built {b : Build (Wire × Wire)} {x : Bit × Bit}
    (hb : Built v width b n fun m r => Net.Holds v width m r.1 x.1 ∧ Net.Holds v width m r.2 x.2) :
    Built v width (b >>= fun r => pure [r.1, r.2]) n fun m ws => Net.HoldsOutputs v width m ws (.pair x.1 x.2) :=
  hb.bind fun _ _ e ⟨h0, h1⟩ => Built.pure e.wf (.cons h0 (.cons h1 .nil))

theorem outAdder_built {b : Build (Wire × Wire)} {x : Bit × Bit}
    (hb : Built v width b n fun m r => Net.Holds v width m r.1 x.1 ∧ Net.Holds v width m r.2 x.2) :
    Built v width (b >>= fun r => pure [r.1, r.2]) n fun m ws => Net.HoldsOutputs v width m ws (.adder x.1 x.2) :=
  outPair_built hb

/-- A bus is the whole of the outputs whose only port it is on. -/
theorem outBus_built {w : Nat} {b : Build (List Wire)} {x : Bus w} {o : Outputs}
    (hb : Built v width b n fun m ws => Net.HoldsBus v width m ws x)
    (ho : o.signals.flatMap Signal.bits = bitsOf x := by exact List.append_nil _) :
    Built v width b n fun m ws => Net.HoldsOutputs v width m ws o := by
  unfold Net.HoldsOutputs
  rw [ho]
  exact hb

/-! ## Every cell -/

/-- The cell, decoded from `v`, shows outputs whose Bits its construction puts on its output wires. -/
def Computes (c : Cell) (v : List Bit) (s : State) : Prop :=
  ∃ o, Gives (decodeCell c v) s o ∧ Built v c.width (structureOf s.wideDemuxOrder c) Net.empty
    fun m ws => Net.HoldsOutputs v c.width m ws o

/-- Every cell's construction computes the cell: each piece of it carries the truth function of its rule. -/
theorem computes (c : Cell) (v : List Bit) (s : State) : Computes c v s := by
  unfold Computes
  cases c <;> simp only [decodeCell, takeBit_eq, takeBus_eq, List.drop_drop, getD_drop]
  case nandGate => exact ⟨_, rfl, outBit_built (nandS_built empty_wf holds_inputWire holds_inputWire)⟩
  case notGate => exact ⟨_, rfl, outBit_built (notS_built empty_wf holds_inputWire)⟩
  case andGate => exact ⟨_, rfl, outBit_built (andS_built empty_wf holds_inputWire holds_inputWire)⟩
  case orGate => exact ⟨_, rfl, outBit_built (orS_built empty_wf holds_inputWire holds_inputWire)⟩
  case xorGate => exact ⟨_, rfl, outBit_built (xorS_built empty_wf holds_inputWire holds_inputWire)⟩
  case muxBit => exact ⟨_, rfl, outBit_built (muxS_built empty_wf holds_inputWire holds_inputWire holds_inputWire)⟩
  case demuxBit => exact ⟨_, rfl, outPair_built (demuxS_built empty_wf holds_inputWire holds_inputWire)⟩
  case not4 | not8 | not16 => exact ⟨_, rfl, outBus_built (notBusS_holds empty_wf holdsBus_inputWires)⟩
  case and4 | and8 | and16 => exact ⟨_, rfl, outBus_built (andBusS_holds empty_wf holdsBus_inputWires holdsBus_inputWires)⟩
  case or4 | or8 | or16 => exact ⟨_, rfl, outBus_built (orBusS_holds empty_wf holdsBus_inputWires holdsBus_inputWires)⟩
  case xor4 | xor8 | xor16 => exact ⟨_, rfl, outBus_built (xorBusS_holds empty_wf holdsBus_inputWires holdsBus_inputWires)⟩
  case mux4 | mux8 | mux16 =>
    exact ⟨_, rfl, outBus_built (muxBusS_holds empty_wf holdsBus_inputWires holdsBus_inputWires holds_inputWire)⟩
  case or8way => exact ⟨_, rfl, outBit_built (or8wayS_holds empty_wf holdsBus_inputWires)⟩
  case and8way => exact ⟨_, rfl, outBit_built (and8wayS_holds empty_wf holdsBus_inputWires)⟩
  case mux4way16 =>
    refine ⟨_, rfl, outBus_built ?_⟩
    simp only [mux4way16Of_eq_tree]
    exact mux4way16S_holds empty_wf holdsBus_inputWires holdsBus_inputWires holdsBus_inputWires holdsBus_inputWires
      (holds_inputBit (off := 64) (i := 0)) (holds_inputBit (off := 64) (i := 1))
  case mux8way16 =>
    refine ⟨_, rfl, outBus_built ?_⟩
    simp only [mux8way16Of_eq_tree]
    exact mux8way16S_holds empty_wf holdsBus_inputWires holdsBus_inputWires holdsBus_inputWires holdsBus_inputWires
      holdsBus_inputWires holdsBus_inputWires holdsBus_inputWires holdsBus_inputWires
      (holds_inputBit (off := 128) (i := 0)) (holds_inputBit (off := 128) (i := 1)) (holds_inputBit (off := 128) (i := 2))
  case demux4way => exact ⟨_, rfl, outBus_built (demux4wayS_holds _ empty_wf holds_inputWire
      (holds_inputBit (off := 1) (i := 0)) (holds_inputBit (off := 1) (i := 1)))⟩
  case demux8way => exact ⟨_, rfl, outBus_built (demux8wayS_holds _ empty_wf holds_inputWire
      (holds_inputBit (off := 1) (i := 0)) (holds_inputBit (off := 1) (i := 1)) (holds_inputBit (off := 1) (i := 2)))⟩
  case or16way => exact ⟨_, rfl, outBit_built (or16wayS_holds empty_wf holdsBus_inputWires)⟩
  case halfAdder => exact ⟨_, rfl, outAdder_built (halfAdderS_built empty_wf holds_inputWire holds_inputWire)⟩
  case fullAdder =>
    exact ⟨_, rfl, outAdder_built (fullAdderS_built empty_wf holds_inputWire holds_inputWire holds_inputWire)⟩
  case adder4 | adder8 | adder16 =>
    exact ⟨_, rfl, outBus_built (adderS_holds empty_wf holdsBus_inputWires holdsBus_inputWires)⟩
  case incrementer4 | incrementer8 | incrementer16 =>
    exact ⟨_, rfl, outBus_built (incrementerS_holds empty_wf holdsBus_inputWires)⟩
  case alu =>
    exact ⟨_, rfl, aluS_holds empty_wf holdsBus_inputWires holdsBus_inputWires holds_inputWire holds_inputWire
      holds_inputWire holds_inputWire holds_inputWire holds_inputWire⟩

/-- The network of every cell is well formed, and its output wires exist and carry the Bits of the evaluation. -/
theorem netOf_computes (c : Cell) (v : List Bit) (s : State) :
    ∃ o, Gives (decodeCell c v) s o ∧ (netOf s.wideDemuxOrder c).wf c.width = true ∧
      Net.HoldsOutputs v c.width (netOf s.wideDemuxOrder c) ((structureOf s.wideDemuxOrder c).run Net.empty).1 o := by
  obtain ⟨o, ho, ws, m, hrun, hext, hws⟩ := computes c v s
  have hout : (structureOf s.wideDemuxOrder c).run Net.empty = (ws, m) := hrun
  rw [netOf, hout]
  exact ⟨o, ho, hext.wf, hws⟩

/-- What wires carry is what they are read as. -/
theorem map_read_of_holds {ws : List Wire} {bs : List Bit} (h : List.Forall₂ (Net.Holds v width n) ws bs) :
    ws.map (n.read v) = bs := by
  induction h with
  | nil => rfl
  | cons hw _ ih => rw [List.map_cons, hw.2, ih]

/-- Wires that carry something exist. -/
theorem within_of_holds {ws : List Wire} {bs : List Bit} (h : List.Forall₂ (Net.Holds v width n) ws bs) :
    ∀ w ∈ ws, w.within width n.size = true := by
  induction h with
  | nil => simp
  | cons hw _ ih => exact List.forall_mem_cons.2 ⟨hw.1, ih⟩

end Machine

end Sys2Proof

open Sys2Proof Sys2Proof.Machine

/-- Settles O57: the construction of the cell carries the outputs' Bits on its output wires. -/
theorem networksComputeTheTruthFunctions : Obligations.NetworksComputeTheTruthFunctions := by
  intro c v s _
  obtain ⟨o, ho, -, hws⟩ := netOf_computes c v s
  exact ⟨o, ho, map_read_of_holds hws⟩

/-- Settles O58: a construction keeps its network well formed, whatever the input vector. -/
theorem networksAreAcyclic : Obligations.NetworksAreAcyclic := by
  intro order c
  obtain ⟨o, -, hwf, hws⟩ := netOf_computes c [] (State.idle order)
  exact ⟨hwf, within_of_holds hws⟩
end

section
/-! SUPPORT. The state: an evaluation reads only the parameter, and a run makes the presented evaluations one after the other
(spec/10_state.md). -/

namespace Sys2Proof.Machine

/-- An instruction reads nothing of the state but the parameter: it shows what an idle machine with that parameter shows
(R20). -/
theorem outputsOf_eq_outputsOf_idle (i : Instr) (s : State) : outputsOf i s = outputsOf i (State.idle s.wideDemuxOrder) := by
  cases i <;> rfl

/-- What a step with something presented does: the first request is gone, the parameter stays, and the outputs are those of
that request alone. -/
theorem step_of_requests_cons {s : State} {r : Request} {rs : List Request} (h : s.requests = r :: rs) :
    ∃ t, step s = .next t ∧ t.requests = rs ∧ t.wideDemuxOrder = s.wideDemuxOrder ∧
      t.outputs = outputsOf r.instr (State.idle s.wideDemuxOrder) := by
  obtain ⟨hn, -⟩ | ⟨r', rs', hr, hs⟩ := step_cases s
  · simp [h] at hn
  · obtain ⟨rfl, rfl⟩ : r = r' ∧ rs = rs' := by simpa [h] using hr
    obtain ⟨o, ho⟩ := exec_gives r.instr (s.withRequests rs)
    have hout := outputsOf_eq_outputsOf_idle r.instr (s.withRequests rs)
    rw [outputsOf_of_gives ho] at hout
    exact ⟨_, hs.trans ho, rfl, rfl, hout⟩

/-- A run is its first step and the run from there. -/
theorem run_succ_of_step {M : Host.Core} {s t : M.State} (h : M.step s = .next t) (k : Nat) : M.run (k + 1) s = M.run k t := by
  rw [Host.Core.run, h]

/-- A run over a whole queue ends with nothing presented, the parameter it began with, and the outputs of the last request
alone. -/
theorem run_of_requests_append (rs : List Request) (r : Request) {s : State} (h : s.requests = rs ++ [r]) :
    ∃ t : State, Host.Core.run core (rs.length + 1) s = .next t ∧ t.requests = [] ∧
      t.wideDemuxOrder = s.wideDemuxOrder ∧ t.outputs = outputsOf r.instr (State.idle s.wideDemuxOrder) := by
  induction rs generalizing s with
  | nil =>
    obtain ⟨t, ht, post⟩ := step_of_requests_cons h
    exact ⟨t, run_succ_of_step (M := core) ht 0, post⟩
  | cons r' rs ih =>
    obtain ⟨u, hu, hreq, hord, -⟩ := step_of_requests_cons h
    obtain ⟨t, ht, post⟩ := ih hreq
    rw [hord] at post
    exact ⟨t, (run_succ_of_step (M := core) hu _).trans ht, post⟩

end Sys2Proof.Machine

open Sys2Proof Sys2Proof.Machine

/-- Settles O7: the outputs an instruction gives have the types of its cell's ports. -/
theorem outputsHaveTheTypesOfThePortTable : Obligations.OutputsHaveTheTypesOfThePortTable := by
  intro i s t ht
  obtain ⟨o, ho, hty⟩ := exec_gives_outputTypes i s
  obtain rfl : { s with outputs := some o } = t := Host.Outcome.next.inj (ho.symm.trans ht)
  exact ⟨o, rfl, hty⟩

/-- Settles O8: both outputs are those of the idle machine with the common parameter. -/
theorem outputsDoNotDependOnTheState : Obligations.OutputsDoNotDependOnTheState := by
  intro i s t h
  rw [outputsOf_eq_outputsOf_idle i s, outputsOf_eq_outputsOf_idle i t, h]

/-- Settles O13: by induction on the queue, of which the last request alone is left to the last step. -/
theorem aRunShowsTheLastEvaluationAlone : Obligations.ARunShowsTheLastEvaluationAlone := by
  intro s rs r i hs hd
  obtain rfl : r.instr = i := Except.ok.inj ((decode_vector r).symm.trans hd)
  exact run_of_requests_append rs r hs

/-- Settles O1. -/
theorem resetHasNoOutputsAndNothingPending : Obligations.ResetHasNoOutputsAndNothingPending := ⟨rfl, rfl, rfl⟩
end

section
/-! SUPPORT. Encoding and decoding are inverse to each other, and every row has the Bits and the meaning of its call
(spec/30_encoding.md R54, R56, R57, R63 to R65). -/

namespace Sys2Proof

/-! ## The call of a row -/

/-- The call of a row has an argument of the right type for every port of its cell. -/
theorem asCall_types (i : Instr) : i.asCall.args.map Signal.ty = i.asCall.cell.inputTypes := by
  cases i <;> rfl

/-- The call of a row is a call of the row's cell. -/
theorem asCall_cell (i : Instr) : i.asCall.cell = (encode i).form.cell := by
  cases i <;> rfl

/-- The arguments of the call of a row, side by side, are the Bits of the row. -/
theorem bits_asCall (i : Instr) : i.asCall.args.flatMap Signal.bits = (encode i).bits := by
  cases i <;> simp [Instr.asCall, encode, encodeControl, Signal.bits] <;> rfl

/-- The encoding of an instruction has the length of its cell's input vector. -/
theorem encode_wf (i : Instr) : (encode i).wf = true := by
  rw [InputVector.wf_iff, ← bits_asCall, length_bits_of_types (asCall_types i), asCall_cell, Form.width]

/-- The call of a row means what the row means (R64). -/
theorem exec_decodeCell_asCall (i : Instr) (s : Machine.State) :
    Machine.exec (decodeCell i.asCall.cell (i.asCall.args.flatMap Signal.bits)) s = Machine.exec i s := by
  cases i <;> simp [Instr.asCall, decodeCell, Signal.bits] <;> rfl

/-! ## Decoding an encoding, form by form -/

/-- A row in the control word form is the row of its six Bits. -/
theorem encode_eq_encodeControl {i : Instr} (h : (encode i).form = .aluctl) :
    ∃ (ctl : BitVec 6) (x y : Bus 16), encode i = encodeControl ctl x y ∧ i = controlRow (Machine.bitAt ctl 0)
      (Machine.bitAt ctl 1) (Machine.bitAt ctl 2) (Machine.bitAt ctl 3) (Machine.bitAt ctl 4) (Machine.bitAt ctl 5) x y := by
  cases i <;> cases h <;> exact ⟨_, _, _, rfl, rfl⟩

/-- A cell row is decoded from its own vector. -/
theorem decodeCell_encode {i : Instr} {c : Cell} (h : (encode i).form = .call c) : decodeCell c (encode i).bits = i := by
  cases i <;> cases h <;> simp [encode, decodeCell]

/-- A selector row is decoded from its own vector. -/
theorem decodeSel_encode {i : Instr} {c : SelCell} (h : (encode i).form = .sel c) : decodeSel c (encode i).bits = i := by
  cases i <;> cases h <;> simp [encode, decodeSel]

/-- Decoding undoes encoding. -/
theorem decode_encode (i : Instr) : decode (encode i) = .ok i := by
  cases hf : (encode i).form with
  | call c => rw [decode_of_wf _ (encode_wf i), hf, decodeForm, decodeCell_encode hf]
  | sel c => rw [decode_of_wf _ (encode_wf i), hf, decodeForm, decodeSel_encode hf]
  | aluctl =>
    obtain ⟨ctl, x, y, he, hi⟩ := encode_eq_encodeControl hf
    rw [he, decode_encodeControl, ← hi]

/-- The request of an instruction presents its encoding. -/
theorem vector_request (i : Instr) : i.request.vector = encode i := vector_of_wf _ (encode_wf i)

/-! ## Encoding what was decoded, form by form -/

theorem bitsOf_takeBus_two (v : List Bit) : bitsOf (takeBus 2 v).1 = [(takeBit v).1, (takeBit (takeBit v).2).1] := by
  rcases v with _ | ⟨a, _ | ⟨b, v⟩⟩ <;> simp [takeBus, ofBits, bitsOf, takeBit]

theorem bitsOf_takeBus_three (v : List Bit) : bitsOf (takeBus 3 v).1 =
    [(takeBit v).1, (takeBit (takeBit v).2).1, (takeBit (takeBit (takeBit v).2).2).1] := by
  rcases v with _ | ⟨a, _ | ⟨b, _ | ⟨c, v⟩⟩⟩ <;> simp [takeBus, ofBits, bitsOf, takeBit]

/-- A selector row decoded from a vector has the Bits of the call decoded from it: the selector is its last port (R56, R57). -/
theorem encode_decodeSel (c : SelCell) (v : List Bit) :
    encode (decodeSel c v) = ⟨.sel c, (encode (decodeCell c.toCell v)).bits⟩ := by
  cases c
  all_goals
    dsimp only [decodeSel, decodeCell, SelCell.toCell]
    split
    all_goals simp [*, encode, bitsOf_takeBus_two, bitsOf_takeBus_three]

/-- What a form and a vector name has the Bits of the call decoded from the vector. -/
theorem encode_decodeForm (f : Form) (v : List Bit) :
    encode (decodeForm f v) = ⟨f, (encode (decodeCell f.cell v)).bits⟩ := by
  cases f with
  | call c => rw [decodeForm, Form.cell, encode_decodeCell]
  | sel c => exact encode_decodeSel c v
  | aluctl => exact encode_controlRow ..

/-- So encoding what was decoded from a vector of the right length gives the vector, Bit for Bit. -/
theorem encode_decodeForm_of_wf {v : InputVector} (h : v.wf = true) : encode (decodeForm v.form v.bits) = v := by
  rw [encode_decodeForm, encode_decodeCell_of_length (v.wf_iff.1 h)]

/-- What a vector decodes to is encoded as that vector. -/
theorem encode_of_decode {v : InputVector} {i : Instr} (h : decode v = .ok i) : encode i = v := by
  obtain ⟨hw, hd⟩ | ⟨-, hd⟩ := decode_cases v
  · obtain rfl := Except.ok.inj (hd.symm.trans h)
    exact encode_decodeForm_of_wf hw
  · cases hd.symm.trans h

/-- A request is known by its vector. -/
theorem vector_injective {q r : Request} (h : q.vector = r.vector) : q = r :=
  Except.ok.inj ((build_vector q).symm.trans ((congrArg InputVector.build h).trans (build_vector r)))

end Sys2Proof

open Sys2Proof Sys2Proof.Machine

/-- Settles O15: decoding undoes encoding in each of the three forms, and the request is built from the encoding. -/
theorem decodeOfEncodeIsTheInstruction : Obligations.DecodeOfEncodeIsTheInstruction := by
  intro i
  refine ⟨decode_encode i, vector_request i, ?_⟩
  have h := decode_vector i.request
  rw [vector_request, decode_encode] at h
  exact (Except.ok.inj h).symm

/-- Settles O16: encoding undoes decoding, and a request is known by its vector. -/
theorem encodeOfDecodeIsTheRequest : Obligations.EncodeOfDecodeIsTheRequest :=
  ⟨fun _ _ => encode_of_decode, fun r => vector_injective ((vector_request r.instr).trans (encode_of_decode (decode_vector r)))⟩

/-- Settles O54: the arguments of the call have the types of the ports, and its vector has the Bits of the row. -/
theorem everyRowIsItsCall : Obligations.EveryRowIsItsCall := by
  intro i
  obtain ⟨-, hj⟩ | ⟨hn, -⟩ := toInstr_cases i.asCall
  · refine ⟨_, hj, ?_, fun s => (exec_decodeCell_asCall i s).symm⟩
    rw [encode_decodeCell_of_length (length_bits_of_types (asCall_types i)), bits_asCall]
  · exact absurd (asCall_types i) hn

/-- Settles O14: each word is the encoding of its instruction. -/
theorem wordsOfTheSpecDecode : Obligations.WordsOfTheSpecDecode :=
  ⟨decode_encode (.nandGate true false), decode_encode (.and4 0b1100#4 0b1010#4), decode_encode (.muxBit true false true),
    decode_encode (.muxSelB true false), decode_encode (.demux4way true 0b10#2), decode_encode (.fullAdder true false true),
    decode_encode (.aluAdd 5#16 3#16)⟩
end

section
/-! SUPPORT. The bare words of the opcode table: a word of one byte is a control word, and a word presented is what the next
step runs (spec/30_encoding.md R54, R65; notes/assumptions/4.md, 6.md). -/

namespace Sys2Proof.Machine

/-! ## A word of one byte -/

/-- The reading of two vectors side by side. -/
theorem listVal_append (l m : List Bit) : listVal (l ++ m) = listVal l * 2 ^ m.length + listVal m := by
  induction l with
  | nil => simp [listVal]
  | cons b l ih => simp only [List.cons_append, listVal, ih, List.length_append, pow_add]; ring

/-- The last `m` Bits of a number hold its remainder by `2^m`, and the Bits before them its quotient. -/
theorem bitsOf_ofNat_append (n m w : Nat) :
    bitsOf (BitVec.ofNat (n + m) w) = bitsOf (BitVec.ofNat n (w / 2 ^ m)) ++ bitsOf (BitVec.ofNat m w) := by
  refine listVal_injective (by simp) ?_
  simp only [listVal_append, listVal_bitsOf, length_bitsOf, BitVec.toNat_ofNat]
  rw [Nat.add_comm n m, pow_add, Nat.mod_mul, Nat.add_comm, Nat.mul_comm]

/-- A word of one byte presents its six low bits as the control word, and its bits 6 and 7 as the low end of `y`. -/
theorem tableRequest_byte {w : Nat} (h : w < 256) :
    ∃ r, tableRequest 8 w = some r ∧ r.vector = encodeControl (BitVec.ofNat 6 w) 0#16 (BitVec.ofNat 16 (w / 64)) := by
  have hmod : w % 2 ^ 8 = w := Nat.mod_eq_of_lt h
  have hfit : w < 2 ^ 38 := by omega
  have hx : w / 64 / 65536 = 0 := by omega
  have hctl : bitsOf (BitVec.ofNat 38 w) = bitsOf (BitVec.ofNat 32 (w / 64)) ++ bitsOf (BitVec.ofNat 6 w) :=
    bitsOf_ofNat_append 32 6 w
  have hxy : bitsOf (BitVec.ofNat 32 (w / 64)) = bitsOf 0#16 ++ bitsOf (BitVec.ofNat 16 (w / 64)) := by
    simpa [hx] using bitsOf_ofNat_append 16 16 (w / 64)
  refine ⟨⟨.aluctl, BitVec.ofNat _ w⟩, ?_, congrArg (InputVector.mk .aluctl) (hctl.trans (by rw [hxy]))⟩
  rw [tableRequest, hmod]
  exact if_pos hfit

/-! ## A word presented -/

/-- A step right after a request was put in front runs that request, at the state from before. -/
theorem step_withRequests_cons (s : State) (r : Request) : step (s.withRequests (r :: s.requests)) = exec r.instr s := rfl

end Sys2Proof.Machine

open Sys2Proof Sys2Proof.Machine

/-- Settles O18: a byte presents a control word vector; a word that is presented stands in front of the queue. -/
theorem tableWordsAreControlWords : Obligations.TableWordsAreControlWords := by
  refine ⟨fun w hw ctl hctl => ?_, fun s nbits w i hi => ?_, fun s nbits w hn => ?_⟩
  · obtain ⟨r, hr, hv⟩ := tableRequest_byte hw
    have hd := decode_encodeControl (BitVec.ofNat 6 w) 0#16 (BitVec.ofNat 16 (w / 64))
    rw [← hv, decode_vector, ← hctl] at hd
    rw [decodeTableWord, hr, Option.map_some, Except.ok.inj hd]
  · obtain ⟨r, hr, rfl⟩ := Option.map_eq_some_iff.1 hi
    rw [State.withFetchWord, hr]
    exact step_withRequests_cons s r
  · rw [State.withFetchWord, Option.map_eq_none_iff.1 hn]
end

section
/-! SUPPORT. Which control words compute the same function (spec/30_encoding.md table T59): the words of a class compute the
function of the class, and one pair of operands tells the classes apart. -/

namespace Sys2Proof.Machine

/-- The result bus of `alu` under a control word (R54). -/
def controlOf (ctl : BitVec 6) (x y : Bus 16) : Bus 16 :=
  aluOf x y (bitAt ctl 0) (bitAt ctl 1) (bitAt ctl 2) (bitAt ctl 3) (bitAt ctl 4) (bitAt ctl 5)

theorem aluControl_eq_drive (ctl : BitVec 6) (x y : Bus 16) (s : State) :
    aluControl ctl x y s = drive (aluOutputs (controlOf ctl x y)) s := rfl

/-- Two control words compute the same function exactly when they compute the same result bus: the status outputs depend on
nothing else. -/
theorem aluControl_eq_iff (c d : BitVec 6) :
    (∀ (x y : Bus 16) (s : State), aluControl c x y s = aluControl d x y s) ↔ ∀ x y, controlOf c x y = controlOf d x y := by
  constructor
  · intro h x y
    have hxy := h x y State.reset
    rw [aluControl_eq_drive, aluControl_eq_drive, drive_eq, drive_eq] at hxy
    have hout := congrArg State.outputs (Host.Outcome.next.inj hxy)
    exact (Outputs.alu.inj (Option.some.inj hout)).1
  · intro h x y s
    rw [aluControl_eq_drive, aluControl_eq_drive, h]

/-- `ONES_16`, as the literal it computes to, changes nothing under AND. -/
theorem and_ones (v : Bus 16) : v &&& 0xFFFF#16 = v := BitVec.and_allOnes

theorem ones_and (v : Bus 16) : 0xFFFF#16 &&& v = v := BitVec.allOnes_and

/-- The control words of a class compute one function: 0, -1, `x`, `y`, `!x`, `!y`, class by class (table T59). -/
theorem controlOf_of_mem_class : ∀ l ∈ controlWordClasses, ∃ form : Bus 16 → Bus 16 → Bus 16,
    ∀ c ∈ l, ∀ x y, controlOf c x y = form x y := by
  simp only [controlWordClasses, List.forall_mem_cons]
  refine ⟨⟨fun _ _ => 0#16, ?_⟩, ⟨fun _ _ => -1#16, ?_⟩, ⟨fun x _ => x, ?_⟩, ⟨fun _ y => y, ?_⟩,
    ⟨fun x _ => notBusOf x, ?_⟩, ⟨fun _ y => notBusOf y, ?_⟩, nofun⟩
  all_goals
    simp [controlOf, aluOf, preconditionOf, candidateOf, bitAt, notBusOf, andBusOf, adderOf, and_ones, ones_and]

/-- The operands 18 and 6 tell the functions apart: words with the same result on them are equal or stand in one class. -/
theorem same_class_of_controlOf_eighteen_six (c d : BitVec 6) (h : controlOf c 18#16 6#16 = controlOf d 18#16 6#16) :
    c = d ∨ ∃ l ∈ controlWordClasses, c ∈ l ∧ d ∈ l := by
  decide +revert

end Sys2Proof.Machine

open Sys2Proof Sys2Proof.Machine

/-- Settles O52: the words of a class compute its function, and the results on the operands 18 and 6 tell the classes apart. -/
theorem controlWordsWithOneFunction : Obligations.ControlWordsWithOneFunction := by
  intro c d
  rw [aluControl_eq_iff]
  constructor
  · exact fun h => same_class_of_controlOf_eighteen_six c d (h _ _)
  · rintro (rfl | ⟨l, hl, hc, hd⟩) x y
    · rfl
    · obtain ⟨form, hform⟩ := controlOf_of_mem_class l hl
      rw [hform c hc, hform d hd]
end

section
/-! SUPPORT. The selector rows of the multiplexers and the demultiplexers (spec/30_encoding.md R56, R57). -/

namespace Sys2Proof.Machine

/-- What `demux4way` gives, its output Bits written one by one in the order `significance` (R114). -/
theorem demux4way_gives {i : Bit} {sel : Selector 2} {s : State} {bits : List Bit}
    (h : [i && bitAt sel 0 && bitAt sel 1, i && bitAt sel 0 && !bitAt sel 1,
      i && !bitAt sel 0 && bitAt sel 1, i && !bitAt sel 0 && !bitAt sel 1] = bits) :
    Gives (.demux4way i sel) s (.bus4 (ofBits 4 (inOrder s.wideDemuxOrder bits))) := by
  rw [← h, ← bitsOf_demux4wayOf, ofBits_bitsOf]
  rfl

/-- What `demux8way` gives, its output Bits written one by one in the order `significance` (R115). -/
theorem demux8way_gives {i : Bit} {sel : Selector 3} {s : State} {bits : List Bit}
    (h : [i && bitAt sel 0 && bitAt sel 1 && bitAt sel 2, i && bitAt sel 0 && bitAt sel 1 && !bitAt sel 2,
          i && bitAt sel 0 && !bitAt sel 1 && bitAt sel 2, i && bitAt sel 0 && !bitAt sel 1 && !bitAt sel 2] ++
        [i && !bitAt sel 0 && bitAt sel 1 && bitAt sel 2, i && !bitAt sel 0 && bitAt sel 1 && !bitAt sel 2,
          i && !bitAt sel 0 && !bitAt sel 1 && bitAt sel 2, i && !bitAt sel 0 && !bitAt sel 1 && !bitAt sel 2] = bits) :
    Gives (.demux8way i sel) s (.bus8 (ofBits 8 (inOrder s.wideDemuxOrder bits))) := by
  rw [← h, ← bitsOf_demux8wayOf, ofBits_bitsOf]
  rfl

end Sys2Proof.Machine

open Sys2Proof Sys2Proof.Machine

/-- Settles O31: a row is its cell with the selector's Bits fixed, which pick the input by computation. -/
theorem multiplexerRowsSelectTheirInput : Obligations.MultiplexerRowsSelectTheirInput := by
  intro s
  and_intros <;> intros <;> rfl

/-- Settles O32: a row is its cell with the selector's Bits fixed, which leave `i` at one output and 0 at the others. -/
theorem demultiplexerRowsDriveTheirOutput : Obligations.DemultiplexerRowsDriveTheirOutput := by
  intro s
  refine ⟨fun i => by cases i <;> rfl, fun i => by cases i <;> rfl,
    fun i => demux4way_gives (sel := 0b00#2) ?_, fun i => demux4way_gives (sel := 0b01#2) ?_,
    fun i => demux4way_gives (sel := 0b10#2) ?_, fun i => demux4way_gives (sel := 0b11#2) ?_,
    fun i => demux8way_gives (sel := 0b000#3) ?_, fun i => demux8way_gives (sel := 0b001#3) ?_,
    fun i => demux8way_gives (sel := 0b010#3) ?_, fun i => demux8way_gives (sel := 0b011#3) ?_,
    fun i => demux8way_gives (sel := 0b100#3) ?_, fun i => demux8way_gives (sel := 0b101#3) ?_,
    fun i => demux8way_gives (sel := 0b110#3) ?_, fun i => demux8way_gives (sel := 0b111#3) ?_⟩
  all_goals simp [bitAt]
end

section
/-! SUPPORT. The primitive cell `nand` (spec/40_nand_primitive.md R70, R72): what an evaluation shows, and the laws of the
truth function. -/

namespace Sys2Proof.Machine

/-- An instruction gives one value in a state (R60). -/
theorem Gives.unique {i : Instr} {s : State} {o o' : Outputs} (h : Gives i s o) (h' : Gives i s o') : o = o' :=
  Option.some.inj ((outputsOf_of_gives h).symm.trans (outputsOf_of_gives h'))

theorem nandGate_gives {a b v : Bit} (h : nandOf a b = v) (s : State) : Gives (.nandGate a b) s (.bit v) := by
  rw [← h]
  rfl

theorem nandOf_comm (a b : Bit) : nandOf a b = nandOf b a := by
  rw [nandOf, nandOf, Bool.and_comm]

@[simp] theorem nandOf_self (a : Bit) : nandOf a a = !a := by
  rw [nandOf, Bool.and_self]

@[simp] theorem nandOf_true_right (a : Bit) : nandOf a true = !a := by
  rw [nandOf, Bool.and_true]

@[simp] theorem nandOf_false_right (a : Bit) : nandOf a false = true := by
  rw [nandOf, Bool.and_false, Bool.not_false]

/-- The rule's own instance: `nand(nand(1,1),0)` is 1 and `nand(1,nand(1,0))` is 0 (R72). -/
theorem nandOf_not_assoc : ¬ ∀ a b c : Bit, nandOf (nandOf a b) c = nandOf a (nandOf b c) := by
  intro h
  have hinst := h true true false
  simp at hinst

end Sys2Proof.Machine

open Sys2Proof Sys2Proof.Machine

/-- Settles O20: `nand` gives the value of its truth function, whose table and corner cases are the laws of `nandOf`. -/
theorem nandTruthFunction : Obligations.NandTruthFunction := by
  intro s
  refine ⟨fun a b => nandGate_gives rfl s, nandGate_gives rfl s, nandGate_gives rfl s, nandGate_gives rfl s,
    nandGate_gives rfl s, fun a => ⟨?_, ?_, ?_⟩⟩
  · exact nandGate_gives (nandOf_self a) s
  · exact nandGate_gives (nandOf_true_right a) s
  · exact nandGate_gives (nandOf_false_right a) s

/-- Settles O21: the value is that of the truth function, which is symmetric and fails to associate at 1, 1, 0. -/
theorem nandLaws : Obligations.NandLaws := by
  refine ⟨fun a b => ⟨nandOf a b, nandGate_gives rfl, fun v hv => ?_⟩, fun a b s => ?_, rfl, rfl, nandOf_not_assoc⟩
  · exact Outputs.bit.inj ((hv State.reset).unique (nandGate_gives rfl State.reset))
  · rw [outputsOf_of_gives (nandGate_gives (nandOf_comm a b) s), outputsOf_of_gives (nandGate_gives rfl s)]
end

section
/-! SUPPORT. The scalar gates (spec/41_scalar_gates.md R80 to R86): what an evaluation shows, the compositions of the source,
and the laws of the truth functions. -/

namespace Sys2Proof.Machine

/-- Two instructions that give one value show the same outputs. -/
theorem outputsOf_eq_of_gives {i j : Instr} {s : State} {o : Outputs} (h : Gives i s o) (h' : Gives j s o) :
    outputsOf i s = outputsOf j s :=
  (outputsOf_of_gives h).trans (outputsOf_of_gives h').symm

theorem notGate_gives {a v : Bit} (h : notOf a = v) (s : State) : Gives (.notGate a) s (.bit v) := by
  rw [← h]
  rfl

theorem andGate_gives {a b v : Bit} (h : andOf a b = v) (s : State) : Gives (.andGate a b) s (.bit v) := by
  rw [← h]
  rfl

theorem orGate_gives {a b v : Bit} (h : orOf a b = v) (s : State) : Gives (.orGate a b) s (.bit v) := by
  rw [← h]
  rfl

theorem xorGate_gives {a b v : Bit} (h : xorOf a b = v) (s : State) : Gives (.xorGate a b) s (.bit v) := by
  rw [← h]
  rfl

theorem muxBit_gives {a b sel v : Bit} (h : muxOf a b sel = v) (s : State) : Gives (.muxBit a b sel) s (.bit v) := by
  rw [← h]
  rfl

theorem demuxBit_gives {i sel v0 v1 : Bit} (h : demuxOf i sel = (v0, v1)) (s : State) :
    Gives (.demuxBit i sel) s (.pair v0 v1) := by
  obtain ⟨rfl, rfl⟩ := Prod.mk.inj h
  rfl

@[simp] theorem notOf_notOf (a : Bit) : notOf (notOf a) = a := Bool.not_not a

theorem andOf_comm (a b : Bit) : andOf a b = andOf b a := Bool.and_comm a b

theorem andOf_assoc (a b c : Bit) : andOf (andOf a b) c = andOf a (andOf b c) := Bool.and_assoc a b c

theorem orOf_comm (a b : Bit) : orOf a b = orOf b a := Bool.or_comm a b

theorem orOf_assoc (a b c : Bit) : orOf (orOf a b) c = orOf a (orOf b c) := Bool.or_assoc a b c

theorem xorOf_comm (a b : Bit) : xorOf a b = xorOf b a := Bool.xor_comm a b

theorem xorOf_assoc (a b c : Bit) : xorOf (xorOf a b) c = xorOf a (xorOf b c) := Bool.xor_assoc a b c

theorem xorOf_eq_true_iff (a b : Bit) : xorOf a b = true ↔ a ≠ b := by
  rw [xorOf, Bool.xor_iff_ne]

@[simp] theorem muxOf_false (a b : Bit) : muxOf a b false = a := rfl

@[simp] theorem muxOf_true (a b : Bit) : muxOf a b true = b := rfl

@[simp] theorem muxOf_self (a sel : Bit) : muxOf a a sel = a := ite_self a

theorem muxOf_eq_or_and (a b sel : Bit) : muxOf a b sel = (!sel && a || sel && b) := by
  cases sel
  · rw [muxOf_false, Bool.not_false, Bool.true_and, Bool.false_and, Bool.or_false]
  · rw [muxOf_true, Bool.not_true, Bool.false_and, Bool.true_and, Bool.false_or]

/-- Selector 0 drives index 1 (R85). -/
@[simp] theorem demuxOf_false (i : Bit) : demuxOf i false = (false, i) := by
  rw [demuxOf, Bool.and_false, Bool.not_false, Bool.and_true]

/-- Selector 1 drives index 0 (R85). -/
@[simp] theorem demuxOf_true (i : Bit) : demuxOf i true = (i, false) := by
  rw [demuxOf, Bool.and_true, Bool.not_true, Bool.and_false]

theorem notOf_eq_nandOf (a : Bit) : notOf a = nandOf a a := (nandOf_self a).symm

theorem andOf_eq_notOf_nandOf (a b : Bit) : andOf a b = notOf (nandOf a b) := (Bool.not_not (a && b)).symm

/-- De Morgan (R82). -/
theorem orOf_eq_notOf_andOf (a b : Bit) : orOf a b = notOf (andOf (notOf a) (notOf b)) := by
  rw [notOf, andOf, Bool.not_and, ← notOf, ← notOf, notOf_notOf, notOf_notOf, orOf]

/-- The two `or` are 0 at (1,0) and at (0,1) alone, so that their `and` is 0 exactly where the inputs differ (R83). -/
theorem xorOf_eq_composition (a b : Bit) : xorOf a b = notOf (andOf (orOf (notOf a) b) (orOf a (notOf b))) := by
  cases a <;> cases b <;> rfl

/-- The `or` of the input that is not selected is 1, and `xor` with 1 is `not`, which the outer `not` undoes (R84). -/
theorem muxOf_eq_composition (a b sel : Bit) : muxOf a b sel = notOf (xorOf (orOf sel a) (orOf (notOf sel) b)) := by
  cases sel
  · simp [xorOf, orOf, notOf]
  · simp [xorOf, orOf, notOf]

/-- The outputs of `demux` as a count, a Bit, and a number with index 0 the more significant (R85). -/
theorem demuxOf_readings (i sel : Bit) :
    (demuxOf i sel).1.toNat + (demuxOf i sel).2.toNat = i.toNat ∧ orOf (demuxOf i sel).1 (demuxOf i sel).2 = i ∧
      2 * (demuxOf i sel).1.toNat + (demuxOf i sel).2.toNat = i.toNat * 2 ^ sel.toNat := by
  cases sel
  · simp [orOf]
  · simp [orOf, Nat.mul_comm]

end Sys2Proof.Machine

open Sys2Proof Sys2Proof.Machine

/-- Settles O22: each cell gives the value of its truth function, which the source's composition computes; the corner cases
are the laws of the Boolean operations. -/
theorem scalarGateTruthFunctions : Obligations.ScalarGateTruthFunctions := by
  intro s
  refine ⟨fun a => ⟨notGate_gives rfl s, notOf_eq_nandOf a⟩,
    fun a b => ⟨andGate_gives rfl s, andOf_eq_notOf_nandOf a b⟩,
    fun a b => ⟨orGate_gives rfl s, orOf_eq_notOf_andOf a b⟩,
    fun a b => ⟨xorGate_gives rfl s, xorOf_eq_true_iff a b, xorOf_eq_composition a b⟩,
    fun a b sel => ⟨muxBit_gives rfl s, muxOf_eq_or_and a b sel, muxOf_eq_composition a b sel, muxOf_self a sel⟩,
    fun a => ⟨notOf_notOf a, ?_⟩⟩
  exact ⟨Bool.and_self a, Bool.and_false a, Bool.and_true a, Bool.or_self a, Bool.or_false a, Bool.or_true a,
    Bool.xor_self a, Bool.xor_false a, Bool.xor_true a⟩

/-- Settles O23: the value is that of the truth function, whose readings follow by the selector. -/
theorem demuxTruthFunction : Obligations.DemuxTruthFunction := by
  intro s
  refine ⟨fun i sel => ⟨demuxBit_gives rfl s, demuxOf_readings i sel⟩, fun sel => demuxBit_gives rfl s, ?_, ?_⟩
  · exact demuxBit_gives (demuxOf_false true) s
  · exact demuxBit_gives (demuxOf_true true) s

/-- Settles O24: the evaluations show the truth functions, whose laws these are. -/
theorem scalarGateLaws : Obligations.ScalarGateLaws := by
  intro s
  refine ⟨fun x => outputsOf_of_gives (notGate_gives (notOf_notOf x) s), fun a b => ⟨?_, ?_, ?_⟩,
    fun a b c => ⟨?_, ?_, ?_⟩, fun a b => ⟨outputsOf_of_gives (muxBit_gives (muxOf_false a b) s),
      outputsOf_of_gives (muxBit_gives (muxOf_true a b) s)⟩⟩
  · exact outputsOf_eq_of_gives (andGate_gives (andOf_comm a b) s) (andGate_gives rfl s)
  · exact outputsOf_eq_of_gives (orGate_gives (orOf_comm a b) s) (orGate_gives rfl s)
  · exact outputsOf_eq_of_gives (xorGate_gives (xorOf_comm a b) s) (xorGate_gives rfl s)
  · exact outputsOf_eq_of_gives (andGate_gives (andOf_assoc a b c) s) (andGate_gives rfl s)
  · exact outputsOf_eq_of_gives (orGate_gives (orOf_assoc a b c) s) (orGate_gives rfl s)
  · exact outputsOf_eq_of_gives (xorGate_gives (xorOf_assoc a b c) s) (xorGate_gives rfl s)
end

section
/-! SUPPORT. The bus gates (spec/42_bus_gates.md R90 to R105): each Bit of a result is the scalar gate of the operands' Bits at
that index; the laws and the integer readings, for every width. -/

namespace Sys2Proof.Machine

/-! ## The Bits of a result (R90) -/

theorem bitAt_notBusOf {n i : Nat} (a : Bus n) (hi : i < n) : bitAt (notBusOf a) i = notOf (bitAt a i) := by
  rw [bitAt, notBusOf, BitVec.getMsbD_not, decide_eq_true hi, Bool.true_and, notOf, bitAt]

theorem bitAt_andBusOf {n : Nat} (a b : Bus n) (i : Nat) : bitAt (andBusOf a b) i = andOf (bitAt a i) (bitAt b i) :=
  BitVec.getMsbD_and

theorem bitAt_orBusOf {n : Nat} (a b : Bus n) (i : Nat) : bitAt (orBusOf a b) i = orOf (bitAt a i) (bitAt b i) :=
  BitVec.getMsbD_or

theorem bitAt_xorBusOf {n : Nat} (a b : Bus n) (i : Nat) : bitAt (xorBusOf a b) i = xorOf (bitAt a i) (bitAt b i) :=
  BitVec.getMsbD_xor

@[simp] theorem muxBusOf_false {n : Nat} (a b : Bus n) : muxBusOf a b false = a := rfl

@[simp] theorem muxBusOf_true {n : Nat} (a b : Bus n) : muxBusOf a b true = b := rfl

@[simp] theorem muxBusOf_self {n : Nat} (a : Bus n) (sel : Bit) : muxBusOf a a sel = a := ite_self a

theorem muxBusOf_eq_ite {n : Nat} (a b : Bus n) (sel : Bit) : muxBusOf a b sel = if sel then b else a := rfl

/-- One selector Bit picks the same operand at every index. -/
theorem bitAt_muxBusOf {n : Nat} (a b : Bus n) (sel : Bit) (i : Nat) :
    bitAt (muxBusOf a b sel) i = muxOf (bitAt a i) (bitAt b i) sel := by
  cases sel
  · rw [muxBusOf_false, muxOf_false]
  · rw [muxBusOf_true, muxOf_true]

/-! ## The complement (R91 to R93) -/

@[simp] theorem notBusOf_notBusOf {n : Nat} (a : Bus n) : notBusOf (notBusOf a) = a := BitVec.not_not

theorem notBusOf_zeroBus (n : Nat) : notBusOf (Config.zeroBus n) = Config.onesBus n := BitVec.not_zero

theorem notBusOf_onesBus (n : Nat) : notBusOf (Config.onesBus n) = Config.zeroBus n := BitVec.not_allOnes

theorem val_notBusOf {n : Nat} (a : Bus n) : val (notBusOf a) = 2 ^ n - 1 - val a := BitVec.toNat_not

/-- Complementing turns index 0 over, so of `a` and its complement exactly one has `sval` less than `val`, by `2^n` (R91). -/
theorem sval_notBusOf {n : Nat} (hn : 0 < n) (a : Bus n) : sval (notBusOf a) = -sval a - 1 := by
  have hval : (val (notBusOf a) : Int) = 2 ^ n - 1 - val a := by
    have hlt : val a < 2 ^ n := a.isLt
    rw [val_notBusOf, Nat.sub_sub, Nat.cast_sub (by omega)]
    push_cast
    ring
  rw [sval_eq_val, sval_eq_val, bitAt_notBusOf a hn, hval]
  cases bitAt a 0
  · rw [notOf, Bool.not_false, if_pos rfl, if_neg Bool.false_ne_true]
    ring
  · rw [notOf, Bool.not_true, if_neg Bool.false_ne_true, if_pos rfl]
    ring

end Sys2Proof.Machine

open Sys2Proof Sys2Proof.Machine

/-- Settles O25: each cell gives the bus operation of its width, whose Bits are the scalar gate of the operands' Bits. -/
theorem busGatesActIndexByIndex : Obligations.BusGatesActIndexByIndex := by
  intro s
  exact ⟨fun a => ⟨notBusOf a, rfl, fun _ => bitAt_notBusOf a⟩, fun a => ⟨notBusOf a, rfl, fun _ => bitAt_notBusOf a⟩,
    fun a => ⟨notBusOf a, rfl, fun _ => bitAt_notBusOf a⟩,
    fun a b => ⟨andBusOf a b, rfl, fun i _ => bitAt_andBusOf a b i⟩,
    fun a b => ⟨andBusOf a b, rfl, fun i _ => bitAt_andBusOf a b i⟩,
    fun a b => ⟨andBusOf a b, rfl, fun i _ => bitAt_andBusOf a b i⟩,
    fun a b => ⟨orBusOf a b, rfl, fun i _ => bitAt_orBusOf a b i⟩,
    fun a b => ⟨orBusOf a b, rfl, fun i _ => bitAt_orBusOf a b i⟩,
    fun a b => ⟨orBusOf a b, rfl, fun i _ => bitAt_orBusOf a b i⟩,
    fun a b => ⟨xorBusOf a b, rfl, fun i _ => bitAt_xorBusOf a b i⟩,
    fun a b => ⟨xorBusOf a b, rfl, fun i _ => bitAt_xorBusOf a b i⟩,
    fun a b => ⟨xorBusOf a b, rfl, fun i _ => bitAt_xorBusOf a b i⟩,
    fun a b sel => ⟨muxBusOf a b sel, rfl, muxBusOf_eq_ite a b sel, fun i _ => bitAt_muxBusOf a b sel i⟩,
    fun a b sel => ⟨muxBusOf a b sel, rfl, muxBusOf_eq_ite a b sel, fun i _ => bitAt_muxBusOf a b sel i⟩,
    fun a b sel => ⟨muxBusOf a b sel, rfl, muxBusOf_eq_ite a b sel, fun i _ => bitAt_muxBusOf a b sel i⟩⟩

/-- Settles O26: the readings of the complement by their own lemmas, the rest by the laws of bitwise operations. -/
theorem busGateCornerCases : Obligations.BusGateCornerCases := by
  intro n a b c
  exact ⟨notBusOf_notBusOf a, notBusOf_zeroBus n, notBusOf_onesBus n, val_notBusOf a, (sval_notBusOf · a),
    BitVec.and_self, BitVec.and_zero, BitVec.and_allOnes, BitVec.or_self, BitVec.or_zero, BitVec.or_allOnes,
    BitVec.xor_self, BitVec.xor_zero, BitVec.xor_allOnes, BitVec.and_comm a b, BitVec.or_comm a b, BitVec.xor_comm a b,
    BitVec.and_assoc a b c, BitVec.or_assoc a b c, BitVec.xor_assoc a b c, muxBusOf_self a⟩
end

section
/-! SUPPORT. The wide selectors (spec/43_wide_selectors.md R110 to R116): the reductions as integer readings, the input a
selector picks by its position, and the one output a demultiplexer drives. -/

namespace Sys2Proof.Machine

/-- An instruction gives a value under any other name of that value. -/
theorem Gives.congr {i : Instr} {s : State} {o o' : Outputs} (h : Gives i s o) (ho : o = o') : Gives i s o' := ho ▸ h

/-! ## Reductions (R110, R111, R116) -/

/-- The OR of the Bits is 0 for the bundle of zeros alone, at any width. -/
theorem anyBit_eq_false_iff {n : Nat} (a : BitVec n) : anyBit a = false ↔ a = Config.zeroBus n := by
  rw [anyBit, List.any_eq_false]
  constructor
  · intro h
    refine eq_of_bitAt fun i hi => ?_
    rw [Bool.eq_false_of_not_eq_true (h i (List.mem_range.2 hi)), bitAt, BitVec.getMsbD_zero]
  · rintro rfl i -
    rw [bitAt, BitVec.getMsbD_zero]
    exact Bool.false_ne_true

/-- The AND of the Bits is 1 for the bundle of ones alone, at any width. -/
theorem allBits_eq_true_iff {n : Nat} (a : BitVec n) : allBits a = true ↔ a = Config.onesBus n := by
  rw [allBits, List.all_eq_true]
  constructor
  · intro h
    refine eq_of_bitAt fun i hi => ?_
    rw [h i (List.mem_range.2 hi), bitAt, BitVec.getMsbD_allOnes, decide_eq_true hi]
  · rintro rfl i hi
    rw [bitAt, BitVec.getMsbD_allOnes, decide_eq_true (List.mem_range.1 hi)]

theorem anyBit_eq_decide_val {n : Nat} (a : BitVec n) : anyBit a = decide (val a ≠ 0) := by
  rw [Bool.eq_iff_iff, decide_eq_true_iff, ← Bool.not_eq_false, anyBit_eq_false_iff, ← BitVec.toNat_inj,
    BitVec.toNat_ofNat, Nat.zero_mod]

theorem allBits_eq_decide_val {n : Nat} (a : BitVec n) : allBits a = decide (val a = 2 ^ n - 1) := by
  rw [Bool.eq_iff_iff, decide_eq_true_iff, allBits_eq_true_iff, ← BitVec.toNat_inj, BitVec.toNat_allOnes]

theorem anyBit_eq_any_bitsOf {n : Nat} (a : BitVec n) : anyBit a = (bitsOf a).any id := by
  rw [bitsOf_eq_map, List.any_map]
  rfl

theorem anyBit_busOfBits (n : Nat) (g : Nat → Bit) : anyBit (busOfBits n g) = (List.range n).any g := by
  rw [anyBit_eq_any_bitsOf, bitsOf_busOfBits, List.any_map]
  rfl

/-- The OR of a bundle is the OR of its two parts. -/
theorem anyBit_eq_or_parts {m n : Nat} (a : BitVec (m + n)) :
    anyBit a = orOf (anyBit (busOfBits m (bitAt a))) (anyBit (busOfBits n fun i => bitAt a (m + i))) := by
  rw [anyBit_busOfBits, anyBit_busOfBits, anyBit, List.range_add, List.any_append, List.any_map, orOf]
  rfl

theorem or8wayOf_eq_or (a : Bus 8) : or8wayOf a =
    (bitAt a 0 || bitAt a 1 || bitAt a 2 || bitAt a 3 || bitAt a 4 || bitAt a 5 || bitAt a 6 || bitAt a 7) := by
  simp [or8wayOf, anyBit, List.range_succ, Bool.or_assoc]

theorem and8wayOf_eq_and (a : Bus 8) : and8wayOf a =
    (bitAt a 0 && bitAt a 1 && bitAt a 2 && bitAt a 3 && bitAt a 4 && bitAt a 5 && bitAt a 6 && bitAt a 7) := by
  simp [and8wayOf, allBits, List.range_succ, Bool.and_assoc]

/-! ## Multiplexers (R112, R113) -/

/-- The reading of a selector of two Bits. -/
theorem val_selector_two (sel : Selector 2) : val sel = 2 * (bitAt sel 0).toNat + (bitAt sel 1).toNat := by
  rw [val_eq_sum]
  simp [List.range_succ, Nat.mul_comm]

/-- The reading of a selector of three Bits. -/
theorem val_selector_three (sel : Selector 3) :
    val sel = 4 * (bitAt sel 0).toNat + 2 * (bitAt sel 1).toNat + (bitAt sel 2).toNat := by
  rw [val_eq_sum]
  simp [List.range_succ, Nat.mul_comm, Nat.add_assoc]

theorem mux4way16Of_eq_getD (a b c d : Bus 16) (sel : Selector 2) : mux4way16Of a b c d sel =
    [a, b, c, d].getD (2 * (bitAt sel 0).toNat + (bitAt sel 1).toNat) 0#16 := by
  rw [mux4way16Of_eq_tree]
  cases bitAt sel 0 <;> cases bitAt sel 1 <;> rfl

theorem mux8way16Of_eq_getD (a b c d e f g k : Bus 16) (sel : Selector 3) : mux8way16Of a b c d e f g k sel =
    [a, b, c, d, e, f, g, k].getD (4 * (bitAt sel 0).toNat + 2 * (bitAt sel 1).toNat + (bitAt sel 2).toNat) 0#16 := by
  rw [mux8way16Of_eq_tree]
  cases bitAt sel 0 <;> cases bitAt sel 1 <;> cases bitAt sel 2 <;> rfl

/-! ## Demultiplexers (R114, R115) -/

/-- A demultiplexer of any number `n` of outputs: selector value `v` routes `i` to the output it drives, and the others are 0.
`demux4way` and `demux8way` are the widths 4 and 8. -/
def routeTo (order : WideDemuxOrder) (n : Nat) (i : Bit) (v : Nat) : Bus n :=
  busOfBits n fun j => i && j == drivenIndex order n v

theorem demux4wayOf_eq_routeTo (order : WideDemuxOrder) (i : Bit) (sel : Selector 2) :
    demux4wayOf order i sel = routeTo order 4 i (val sel) := rfl

theorem demux8wayOf_eq_routeTo (order : WideDemuxOrder) (i : Bit) (sel : Selector 3) :
    demux8wayOf order i sel = routeTo order 8 i (val sel) := rfl

section
variable {order : WideDemuxOrder} {n v : Nat} {i : Bit}

theorem drivenIndex_lt (hv : v < n) : drivenIndex order n v < n := by
  cases order with
  | significance => rw [drivenIndex]; omega
  | index => exact hv

/-- No two selector values drive one output. -/
theorem drivenIndex_injective {w : Nat} (hv : v < n) (hw : w < n) (h : drivenIndex order n v = drivenIndex order n w) :
    v = w := by
  cases order with
  | significance => rw [drivenIndex, drivenIndex] at h; omega
  | index => exact h

theorem bitAt_routeTo {j : Nat} (hj : j < n) : bitAt (routeTo order n i v) j = (i && j == drivenIndex order n v) := by
  rw [routeTo, bitAt_busOfBits, decide_eq_true hj, Bool.true_and]

theorem bitAt_routeTo_eq_true_iff (hv : v < n) (j : Nat) :
    bitAt (routeTo order n i v) j = true ↔ i = true ∧ j = drivenIndex order n v := by
  rw [routeTo, bitAt_busOfBits, Bool.and_eq_true, Bool.and_eq_true, decide_eq_true_iff, beq_iff_eq]
  constructor
  · exact And.right
  · rintro ⟨hi, rfl⟩
    exact ⟨drivenIndex_lt hv, hi, rfl⟩

/-- Of a sum over the outputs, whatever weight each has, the driven output's term alone is left. -/
theorem sum_routeTo (hv : v < n) (weight : Nat → Nat) :
    ((List.range n).map fun j => (bitAt (routeTo order n i v) j).toNat * weight j).sum =
      i.toNat * weight (drivenIndex order n v) := by
  have hk : drivenIndex order n v < n := drivenIndex_lt hv
  rw [List.sum_map_eq_nsmul_single (drivenIndex order n v),
    List.count_eq_one_of_mem List.nodup_range (List.mem_range.2 hk), one_nsmul, bitAt_routeTo hk, beq_self_eq_true,
    Bool.and_true]
  intro j hne hj
  rw [bitAt_routeTo (List.mem_range.1 hj), beq_false_of_ne hne, Bool.and_false, Bool.toNat_false, Nat.zero_mul]

theorem bitAt_routeTo_significance (hv : v < n) {j : Nat} (hj : j < n) :
    bitAt (routeTo .significance n i v) j = (i && decide (v = n - 1 - j)) := by
  rw [bitAt_routeTo hj, drivenIndex, beq_eq_decide]
  exact congrArg (i && ·) (decide_eq_decide.2 (by omega))

theorem bitAt_routeTo_index {j : Nat} (hj : j < n) : bitAt (routeTo .index n i v) j = (i && decide (v = j)) := by
  rw [bitAt_routeTo hj, drivenIndex, beq_eq_decide]
  exact congrArg (i && ·) (decide_eq_decide.2 eq_comm)

theorem val_routeTo_significance (hv : v < n) : val (routeTo .significance n i v) = i.toNat * 2 ^ v := by
  rw [val_eq_sum, sum_routeTo hv fun j => 2 ^ (n - 1 - j), drivenIndex, Nat.sub_sub_self (by omega)]

theorem sum_bitsOf_routeTo (hv : v < n) : ((bitsOf (routeTo order n i v)).map Bool.toNat).sum = i.toNat := by
  rw [bitsOf_eq_map, List.map_map]
  simpa [Function.comp_def] using sum_routeTo (order := order) (i := i) hv fun _ => 1

theorem anyBit_routeTo (hv : v < n) : anyBit (routeTo order n i v) = i := by
  rw [Bool.eq_iff_iff, anyBit, List.any_eq_true]
  simp only [bitAt_routeTo_eq_true_iff hv]
  constructor
  · rintro ⟨-, -, hi, -⟩
    exact hi
  · exact fun hi => ⟨_, List.mem_range.2 (drivenIndex_lt hv), hi, rfl⟩

/-- Two selector values never drive the same output. -/
theorem bitAt_routeTo_disjoint {w j : Nat} (hv : v < n) (hw : w < n) (hne : v ≠ w)
    (hj : bitAt (routeTo order n i v) j = true) : bitAt (routeTo order n i w) j = false := by
  obtain ⟨-, hjv⟩ := (bitAt_routeTo_eq_true_iff hv j).1 hj
  refine Bool.eq_false_of_not_eq_true fun hjw => hne ?_
  obtain ⟨-, hjw⟩ := (bitAt_routeTo_eq_true_iff hw j).1 hjw
  exact drivenIndex_injective hv hw (hjv.symm.trans hjw)

end

/-- The outputs of `demux8way` are those of two `demux4way` that a `demux` feeds (D6). -/
theorem bitsOf_demux8wayOf_eq_tree (order : WideDemuxOrder) (i : Bit) (sel : Selector 3) :
    bitsOf (demux8wayOf order i sel) = inOrder order
      (bitsOf (demux4wayOf .significance (demuxOf i (bitAt sel 0)).1 (ofBits 2 [bitAt sel 1, bitAt sel 2])) ++
       bitsOf (demux4wayOf .significance (demuxOf i (bitAt sel 0)).2 (ofBits 2 [bitAt sel 1, bitAt sel 2]))) := by
  simp only [bitsOf_demux8wayOf, bitsOf_demux4wayOf, bitAt_ofBits Nat.two_pos,
    bitAt_ofBits Nat.one_lt_two]
  rfl

end Sys2Proof.Machine

open Sys2Proof Sys2Proof.Machine

/-- Settles O27: a reduction is the integer reading of its bundle, and the OR of sixteen Bits is the OR of its two halves. -/
theorem reductionsOfABus : Obligations.ReductionsOfABus := by
  intro s
  exact ⟨fun a => ⟨Gives.congr rfl (congrArg Outputs.bit (anyBit_eq_decide_val a)), or8wayOf_eq_or a⟩,
    fun a => ⟨Gives.congr rfl (congrArg Outputs.bit (allBits_eq_decide_val a)), and8wayOf_eq_and a⟩,
    fun a => ⟨Gives.congr rfl (congrArg Outputs.bit (anyBit_eq_decide_val a)), anyBit_eq_or_parts (m := 8) (n := 8) a⟩⟩

/-- Settles O28: the tree of two-way multiplexers picks the input at the selector's reading. -/
theorem wideMultiplexersSelectByPosition : Obligations.WideMultiplexersSelectByPosition := by
  intro s
  exact ⟨fun a b c d sel => ⟨Gives.congr rfl (congrArg Outputs.bus16 (mux4way16Of_eq_getD a b c d sel)),
      val_selector_two sel, mux4way16Of_eq_tree a b c d sel⟩,
    fun a b c d e f g h sel => ⟨Gives.congr rfl (congrArg Outputs.bus16 (mux8way16Of_eq_getD a b c d e f g h sel)),
      val_selector_three sel, mux8way16Of_eq_tree a b c d e f g h sel⟩⟩

/-- Settles O29: `demux4way` is the width 4 of the routing, whose facts hold at every width; its Bits are the tree's. -/
theorem demux4wayDrivesOneOutput : Obligations.Demux4wayDrivesOneOutput := by
  intro s i sel
  have hv : val sel < 4 := sel.isLt
  have htree := bitsOf_demux4wayOf s.wideDemuxOrder i sel
  refine ⟨demux4wayOf s.wideDemuxOrder i sel, rfl, ?_⟩
  simp only [demux4wayOf_eq_routeTo] at htree ⊢
  refine ⟨fun h => ?_, fun h => ?_, sum_bitsOf_routeTo hv, anyBit_routeTo hv, fun sel' j hne => ?_, htree⟩
  · rw [h]
    exact ⟨fun j => bitAt_routeTo_significance hv, val_routeTo_significance hv⟩
  · rw [h]
    exact fun j => bitAt_routeTo_index
  · exact bitAt_routeTo_disjoint hv sel'.isLt (mt BitVec.eq_of_toNat_eq hne)

/-- Settles O30: `demux8way` is the width 8 of the same routing. -/
theorem demux8wayDrivesOneOutput : Obligations.Demux8wayDrivesOneOutput := by
  intro s i sel
  have hv : val sel < 8 := sel.isLt
  have htree := bitsOf_demux8wayOf_eq_tree s.wideDemuxOrder i sel
  refine ⟨demux8wayOf s.wideDemuxOrder i sel, rfl, ?_⟩
  simp only [demux8wayOf_eq_routeTo] at htree ⊢
  refine ⟨fun h => ?_, fun h => ?_, sum_bitsOf_routeTo hv, anyBit_routeTo hv, htree⟩
  · rw [h]
    exact ⟨fun j => bitAt_routeTo_significance hv, val_routeTo_significance hv⟩
  · rw [h]
    exact fun j => bitAt_routeTo_index
end

section
/-! SUPPORT. The arithmetic library (spec/44_arithmetic.md R130 to R142): the one-Bit adders by their readings, and
the addition of buses as the addition of integers that `busN` reads modulo `2^n`. -/

namespace Sys2Proof.Machine

/-! ## The one-Bit adders (R130, R131) -/

section
variable (a b c : Bit)

theorem halfAdderOf_reading : 2 * (halfAdderOf a b).1.toNat + (halfAdderOf a b).2.toNat = a.toNat + b.toNat := by
  cases a <;> cases b <;> rfl

theorem fullAdderOf_reading :
    2 * (fullAdderOf a b c).1.toNat + (fullAdderOf a b c).2.toNat = a.toNat + b.toNat + c.toNat := by
  cases a <;> cases b <;> cases c <;> rfl

/-- The arithmetic reading of a carry and a sum determines both. -/
theorem adderOutputs_ext {p q : Bit × Bit} (h : 2 * p.1.toNat + p.2.toNat = 2 * q.1.toNat + q.2.toNat) : p = q := by
  have hinj : Function.Injective Bool.toNat := Function.LeftInverse.injective Bool.ofNat_toNat
  have hp := Bool.toNat_lt p.2
  have hq := Bool.toNat_lt q.2
  exact Prod.ext (hinj (by omega)) (hinj (by omega))

theorem halfAdderOf_carry_and_sum : ((halfAdderOf a b).1 && (halfAdderOf a b).2) = false := by
  cases a
  · rfl
  · cases b <;> rfl

/-- A carry of the first half adder leaves the second a 0 to add to, and so no carry (R131). -/
theorem halfAdderOf_carries_exclusive :
    ((halfAdderOf a b).1 && (halfAdderOf (halfAdderOf a b).2 c).1) = false := by
  have hsecond : (halfAdderOf (halfAdderOf a b).2 c).1 = ((halfAdderOf a b).2 && c) := rfl
  rw [hsecond, ← Bool.and_assoc, halfAdderOf_carry_and_sum, Bool.false_and]

theorem orOf_toNat_of_exclusive {x y : Bit} (h : (x && y) = false) : (orOf x y).toNat = x.toNat + y.toNat := by
  cases x
  · simp [orOf]
  · obtain rfl : y = false := h
    rfl

/-- The two half adders add `a + b + c`, because the OR of carries that are never both 1 is their sum (R131). -/
theorem fullAdderOf_eq_composition : fullAdderOf a b c =
    (orOf (halfAdderOf a b).1 (halfAdderOf (halfAdderOf a b).2 c).1, (halfAdderOf (halfAdderOf a b).2 c).2) := by
  have hfull := fullAdderOf_reading a b c
  have hfirst := halfAdderOf_reading a b
  have hsecond := halfAdderOf_reading (halfAdderOf a b).2 c
  have hcarry := orOf_toNat_of_exclusive (halfAdderOf_carries_exclusive a b c)
  refine adderOutputs_ext ?_
  dsimp only
  omega

theorem fullAdderOf_comm : fullAdderOf a b c = fullAdderOf b a c := by
  refine adderOutputs_ext ?_
  rw [fullAdderOf_reading, fullAdderOf_reading, Nat.add_comm a.toNat]

theorem fullAdderOf_right_comm : fullAdderOf a b c = fullAdderOf a c b := by
  refine adderOutputs_ext ?_
  rw [fullAdderOf_reading, fullAdderOf_reading, Nat.add_right_comm]

theorem fullAdderOf_carryIn_false : fullAdderOf a b false = halfAdderOf a b := by
  refine adderOutputs_ext ?_
  rw [fullAdderOf_reading, halfAdderOf_reading, Bool.toNat_false, Nat.add_zero]

end

/-! ## Buses as integers modulo `2^n` (R11) -/

section
variable {n : Nat}

theorem busN_eq_busN_iff {v w : Int} : busN n v = busN n w ↔ v % 2 ^ n = w % 2 ^ n := by
  rw [← val_eq_emod_iff, (val_eq_emod_iff (busN n v) v).2 rfl]

theorem busN_sval (a : Bus n) : busN n (sval a) = a := BitVec.ofInt_toInt

theorem busN_zero : busN n 0 = Config.zeroBus n := BitVec.ofInt_ofNat n 0

theorem busN_one : busN n 1 = Config.oneBus n := BitVec.ofInt_ofNat n 1

theorem busN_two_pow : busN n (2 ^ n) = Config.zeroBus n := by
  rw [← busN_zero, busN_eq_busN_iff, Int.emod_self, Int.zero_emod]

/-! ## The adder (R132, R141) -/

theorem val_adderOf (a b : Bus n) : val (adderOf a b) = (val a + val b) % 2 ^ n := BitVec.toNat_add a b

/-- `busN` carries the addition of integers to the adder. -/
theorem adderOf_busN (v w : Int) : adderOf (busN n v) (busN n w) = busN n (v + w) := (BitVec.ofInt_add v w).symm

theorem adderOf_eq_busN (a b : Bus n) : adderOf a b = busN n (sval a + sval b) := by
  rw [← adderOf_busN, busN_sval, busN_sval]

/-- The signed reading of the sum is the sum of the signed readings, modulo `2^n`. -/
theorem sval_adderOf_congr (a b : Bus n) : (sval (adderOf a b) - (sval a + sval b)) % 2 ^ n = 0 := by
  rw [← Int.emod_eq_emod_iff_emod_sub_eq_zero, ← busN_eq_busN_iff, busN_sval, adderOf_eq_busN]

theorem adderOf_comm (a b : Bus n) : adderOf a b = adderOf b a := BitVec.add_comm a b

theorem adderOf_assoc (a b c : Bus n) : adderOf (adderOf a b) c = adderOf a (adderOf b c) := BitVec.add_assoc a b c

@[simp] theorem adderOf_zeroBus (a : Bus n) : adderOf a (Config.zeroBus n) = a := BitVec.add_zero a

theorem adderOf_notBusOf_self (a : Bus n) : adderOf a (notBusOf a) = Config.onesBus n := BitVec.add_not_self a

/-- `!a + 1` is the negation, whatever integer `a` is read as (R141). -/
theorem adderOf_notBusOf_busN_one (v : Int) : adderOf (notBusOf (busN n v)) (Config.oneBus n) = busN n (-v) :=
  (BitVec.neg_eq_not_add _).symm.trans BitVec.ofInt_neg.symm

theorem negation_eq_busN_neg_sval (a : Bus n) : adderOf (notBusOf a) (Config.oneBus n) = busN n (-sval a) := by
  rw [← adderOf_notBusOf_busN_one, busN_sval]

theorem negation_zeroBus : adderOf (notBusOf (Config.zeroBus n)) (Config.oneBus n) = Config.zeroBus n := by
  rw [← busN_zero, adderOf_notBusOf_busN_one, neg_zero]

/-- `2^(n-1)` and its negation differ by `2^n`. -/
theorem negation_two_pow_pred (hn : 0 < n) :
    adderOf (notBusOf (busN n (2 ^ (n - 1)))) (Config.oneBus n) = busN n (2 ^ (n - 1)) := by
  have hdouble : (2 : Int) ^ (n - 1) = -2 ^ (n - 1) + 2 ^ n := by
    rw [← mul_pow_sub_one hn.ne' (2 : Int)]
    ring
  calc adderOf (notBusOf (busN n (2 ^ (n - 1)))) (Config.oneBus n)
      = busN n (-2 ^ (n - 1)) := adderOf_notBusOf_busN_one _
    _ = adderOf (busN n (-2 ^ (n - 1))) (busN n (2 ^ n)) := by rw [busN_two_pow, adderOf_zeroBus]
    _ = busN n (2 ^ (n - 1)) := by rw [adderOf_busN, ← hdouble]

/-! ## The incrementer (R137, R142) -/

theorem val_incrementerOf (a : Bus n) : val (incrementerOf a) = (val a + 1) % 2 ^ n := by
  rw [incrementerOf, val_adderOf, val, val, BitVec.toNat_ofNat, Nat.add_mod_mod]

theorem incrementerOf_busN (v : Int) : incrementerOf (busN n v) = busN n (v + 1) := by
  rw [incrementerOf, ← busN_one, adderOf_busN]

end

/-- `k` increments of `ZERO_n` count to `k`. -/
theorem iterate_incrementerOf_zeroBus (n k : Nat) : incrementerOf^[k] (Config.zeroBus n) = busN n k := by
  induction k with
  | zero => exact busN_zero.symm
  | succ k ih => rw [Function.iterate_succ_apply', ih, incrementerOf_busN, Nat.cast_succ]

/-- `2^n - 1` increments of `ZERO_n` reach all ones (R142, as corrected by C2). -/
theorem iterate_incrementerOf_two_pow_sub_one (n : Nat) :
    incrementerOf^[2 ^ n - 1] (Config.zeroBus n) = Config.onesBus n := by
  rw [iterate_incrementerOf_zeroBus, onesBus_eq_busN, Nat.cast_sub Nat.one_le_two_pow]
  push_cast
  rfl

/-- One increment more wraps to all zeros. -/
theorem iterate_incrementerOf_two_pow (n : Nat) : incrementerOf^[2 ^ n] (Config.zeroBus n) = Config.zeroBus n := by
  rw [iterate_incrementerOf_zeroBus, Nat.cast_pow]
  exact busN_two_pow

end Sys2Proof.Machine

open Sys2Proof Sys2Proof.Machine

/-- Settles O36: the laws carry over from the integers, as `busN` carries their addition to the adder. -/
theorem additionLaws : Obligations.AdditionLaws := by
  intro n a b c hn
  exact ⟨val_adderOf a b, sval_adderOf_congr a b, BitVec.le_toInt _, BitVec.toInt_lt, adderOf_comm a b,
    adderOf_assoc a b c, adderOf_zeroBus a, adderOf_notBusOf_self a, negation_eq_busN_neg_sval a, negation_zeroBus,
    negation_two_pow_pred hn⟩

/-- Settles O37, by induction on the number of increments; the instances are a full turn of the width, and one less. -/
theorem rippleProperty : Obligations.RippleProperty := by
  refine ⟨fun n k => ?_, iterate_incrementerOf_two_pow_sub_one 4, iterate_incrementerOf_two_pow 4,
    iterate_incrementerOf_two_pow_sub_one 16, iterate_incrementerOf_two_pow 16⟩
  rw [iterate_incrementerOf_zeroBus, busN_eq_busN_iff]
  push_cast
  exact (Int.emod_emod _ _).symm

/-- Settles O33: the arithmetic readings determine the outputs, and with them the composition and the symmetry. -/
theorem bitAddersAdd : Obligations.BitAddersAdd := by
  intro s
  exact ⟨fun a b => ⟨rfl, rfl, halfAdderOf_reading a b, halfAdderOf_carry_and_sum a b⟩,
    fun a b c => ⟨rfl, fullAdderOf_reading a b c, fullAdderOf_eq_composition a b c,
      halfAdderOf_carries_exclusive a b c, fullAdderOf_comm a b c, fullAdderOf_right_comm a b c,
      fullAdderOf_carryIn_false a b⟩⟩

/-- Settles O34: each cell gives the adder of its width. -/
theorem addersAddModuloTheWidth : Obligations.AddersAddModuloTheWidth := by
  intro s
  exact ⟨fun a b => ⟨adderOf a b, rfl, val_adderOf a b⟩, fun a b => ⟨adderOf a b, rfl, val_adderOf a b⟩,
    fun a b => ⟨adderOf a b, rfl, val_adderOf a b⟩⟩

/-- Settles O35: each cell gives the incrementer of its width, which is the adder with `ONE_n` by definition. -/
theorem incrementersAddOne : Obligations.IncrementersAddOne := by
  intro s
  exact ⟨fun a => ⟨incrementerOf a, rfl, val_incrementerOf a, rfl⟩,
    fun a => ⟨incrementerOf a, rfl, val_incrementerOf a, rfl⟩,
    fun a => ⟨incrementerOf a, rfl, val_incrementerOf a, rfl⟩⟩
end

section
/-! SUPPORT. The ALU (spec/45_alu.md R150 to R162): its steps as the eight lines of the rule, its status outputs as readings of
the result, the difference of two buses as the wrapped difference of integers; and the invariant, which every evaluation
establishes (R85, R155, R156). -/

namespace Sys2Proof.Machine

/-! ## The eight lines (R151 to R157) -/

/-- Zeroing is a `mux16` with `ZERO_16`, complementing a `mux16` with the complement (R151, R152, D10). -/
theorem preconditionOf_eq_muxes (v : Bus 16) (z n : Bit) : preconditionOf v z n =
    muxBusOf (muxBusOf v (Config.zeroBus 16) z) (notBusOf (muxBusOf v (Config.zeroBus 16) z)) n := rfl

@[simp] theorem preconditionOf_false_false (v : Bus 16) : preconditionOf v false false = v := rfl

@[simp] theorem preconditionOf_false_true (v : Bus 16) : preconditionOf v false true = notBusOf v := rfl

@[simp] theorem preconditionOf_true_false (v : Bus 16) : preconditionOf v true false = Config.zeroBus 16 := rfl

@[simp] theorem preconditionOf_true_true (v : Bus 16) : preconditionOf v true true = Config.onesBus 16 :=
  notBusOf_zeroBus 16

/-- `f` = 1 selects the sum (R153, C1). -/
theorem candidateOf_eq_mux (x y : Bus 16) (f : Bit) : candidateOf x y f = muxBusOf (andBusOf x y) (adderOf x y) f := rfl

theorem aluOf_eq_mux (x y : Bus 16) (zx nx zy ny f no : Bit) : aluOf x y zx nx zy ny f no =
    muxBusOf (candidateOf (preconditionOf x zx nx) (preconditionOf y zy ny) f)
      (notBusOf (candidateOf (preconditionOf x zx nx) (preconditionOf y zy ny) f)) no := rfl

/-- The result depends on the operands through what preconditioning makes of them. -/
theorem aluOf_preconditionOf (x y : Bus 16) (zx nx zy ny f no : Bit) :
    aluOf (preconditionOf x zx nx) (preconditionOf y zy ny) false false false false f no = aluOf x y zx nx zy ny f no := by
  simp only [aluOf_eq_mux, preconditionOf_false_false]

theorem alu_gives {x y out : Bus 16} {zx nx zy ny f no : Bit} (h : aluOf x y zx nx zy ny f no = out) (s : State) :
    Gives (.alu x y zx nx zy ny f no) s (.alu out (zeroOf out) (negativeOf out)) := by
  rw [← h]
  rfl

/-- The status outputs an evaluation shows are those of the result it shows (R160). -/
theorem status_of_alu_gives {x y out : Bus 16} {zx nx zy ny f no zero negative : Bit} {s : State}
    (h : Gives (.alu x y zx nx zy ny f no) s (.alu out zero negative)) :
    zero = zeroOf out ∧ negative = negativeOf out := by
  obtain ⟨rfl, rfl, rfl⟩ := Outputs.alu.inj (h.unique (alu_gives rfl s))
  exact ⟨rfl, rfl⟩

/-! ## The status outputs (R155, R156, R162) -/

section
variable (out : Bus 16)

theorem zeroOf_eq_true_iff : zeroOf out = true ↔ out = 0x0000#16 := by
  rw [zeroOf_eq, beq_iff_eq]

theorem zeroOf_eq_false_iff_val : zeroOf out = false ↔ 0x0001 ≤ val out := by
  rw [← Bool.not_eq_true, zeroOf_eq_true_iff, Nat.one_le_iff_ne_zero]
  exact not_congr BitVec.toNat_inj.symm

theorem negativeOf_eq_msb : negativeOf out = out.msb := (BitVec.msb_eq_getMsbD_zero out).symm

theorem negativeOf_eq_true_iff_sval : negativeOf out = true ↔ sval out < 0 := by
  rw [negativeOf_eq_msb, BitVec.msb_eq_toInt, decide_eq_true_iff]

theorem negativeOf_eq_true_iff_val : negativeOf out = true ↔ 0x8000 ≤ val out := by
  rw [negativeOf_eq_msb, BitVec.msb_eq_decide, decide_eq_true_iff]

theorem negativeOf_eq_false_iff_val : negativeOf out = false ↔ val out ≤ 0x7FFF := by
  rw [← Bool.not_eq_true, negativeOf_eq_true_iff_val]
  omega

/-- The result 0 has index 0 low, so `zero` and `negative` are never both 1. -/
theorem zeroOf_and_negativeOf : (zeroOf out && negativeOf out) = false := by
  cases hz : zeroOf out
  · rfl
  · obtain rfl := (zeroOf_eq_true_iff out).1 hz
    rfl

/-- The status pair (1, 0) is the result 0. -/
theorem status_zero_iff : (zeroOf out = true ∧ negativeOf out = false) ↔ out = 0x0000#16 := by
  rw [zeroOf_eq_true_iff]
  constructor
  · exact And.left
  · rintro rfl
    exact ⟨rfl, rfl⟩

/-- The status pair (0, 1) is a result with index 0 high, which is not 0. -/
theorem status_negative_iff : (zeroOf out = false ∧ negativeOf out = true) ↔ 0x8000 ≤ val out := by
  rw [zeroOf_eq_false_iff_val, negativeOf_eq_true_iff_val]
  omega

/-- The status pair (0, 0) is a result above 0 with index 0 low. -/
theorem status_positive_iff : (zeroOf out = false ∧ negativeOf out = false) ↔ 0x0001 ≤ val out ∧ val out ≤ 0x7FFF := by
  rw [zeroOf_eq_false_iff_val, negativeOf_eq_false_iff_val]

end

/-! ## Complement and difference (R161, R162) -/

section
variable (x y : Bus 16)

/-- Adding all ones takes 1 away (R161 (c)). -/
theorem adderOf_ones : adderOf x 0xFFFF#16 = x - 1#16 := (BitVec.sub_eq_add_neg x 1#16).symm

/-- De Morgan (R161 (e)). -/
theorem notBusOf_andBusOf_notBusOf : notBusOf (andBusOf (notBusOf x) (notBusOf y)) = x ||| y := by
  rw [notBusOf, andBusOf, BitVec.not_and, ← notBusOf, ← notBusOf, notBusOf_notBusOf, notBusOf_notBusOf]

/-- The word `010011` computes `!(!x + y)`, which is `x - y` (R161). -/
theorem aluOf_sub : aluOf x y false true false false true true = x - y := by
  have hline : aluOf x y false true false false true true = notBusOf (adderOf (notBusOf x) y) := rfl
  rw [hline, notBusOf_eq_neg, adderOf, notBusOf_eq_neg]
  ring

theorem sval_bounds : -32768 ≤ sval x ∧ sval x < 32768 := ⟨BitVec.le_toInt x, BitVec.toInt_lt⟩

/-- Everything the difference can be read as: the exact difference, which fits, or the one reading `2^16` away that does. -/
theorem sval_sub_cases :
    (-32768 ≤ sval x - sval y ∧ sval x - sval y ≤ 32767 ∧ sval (x - y) = sval x - sval y) ∨
    (32767 < sval x - sval y ∧ sval (x - y) = sval x - sval y - 65536) ∨
    (sval x - sval y < -32768 ∧ sval (x - y) = sval x - sval y + 65536) := by
  have hx := sval_bounds x
  have hy := sval_bounds y
  have hwrap : sval (x - y) = (sval x - sval y).bmod 65536 := BitVec.toInt_sub
  rw [Int.bmod_def] at hwrap
  omega

/-- The sign of the difference is the signed comparison exactly when the exact difference fits (R162): a difference that
wraps changes its sign. -/
theorem sval_sub_neg_iff_lt_iff : (sval (x - y) < 0 ↔ sval x < sval y) ↔
    (-32768 ≤ sval x - sval y ∧ sval x - sval y ≤ 32767) := by
  have hx := sval_bounds x
  have hy := sval_bounds y
  obtain ⟨hlo, hhi, hfit⟩ | ⟨hhi, hwrap⟩ | ⟨hlo, hwrap⟩ := sval_sub_cases x y
  · rw [hfit]
    omega
  · omega
  · omega

theorem zeroOf_sub_eq_true_iff : zeroOf (x - y) = true ↔ x = y := by
  rw [zeroOf_eq_true_iff]
  exact sub_eq_zero

end

/-! ## The invariant (R85, R155, R156, R162) -/

theorem aluOutputs_coherent (out : Bus 16) : (aluOutputs out).coherent = true := by
  rw [aluOutputs, Outputs.coherent, zeroOf_eq, negativeOf, bitAt, beq_self_eq_true, beq_self_eq_true, Bool.and_self]

/-- `demux` routes to one output, whichever its selector names (R85). -/
theorem demuxOf_coherent (i sel : Bit) : (Outputs.pair (demuxOf i sel).1 (demuxOf i sel).2).coherent = true := by
  cases sel
  · rw [demuxOf_false]
    rfl
  · rw [demuxOf_true, Outputs.coherent, Bool.and_false, Bool.not_false]

/-- The evaluation of every cell shows coherent outputs: only `alu` and `demux` have several outputs that bind one another. -/
theorem decodeCell_gives_coherent (c : Cell) (v : List Bit) (s : State) :
    ∃ o, Gives (decodeCell c v) s o ∧ o.coherent = true := by
  cases c
  case alu => exact ⟨_, rfl, aluOutputs_coherent _⟩
  case demuxBit => exact ⟨_, rfl, demuxOf_coherent _ _⟩
  all_goals exact ⟨_, rfl, rfl⟩

/-- So does the evaluation of every row, which is its cell's. -/
theorem exec_gives_coherent (i : Instr) (s : State) : ∃ o, Gives i s o ∧ o.coherent = true := by
  obtain ⟨o, ho, hc⟩ := decodeCell_gives_coherent i.asCall.cell (i.asCall.args.flatMap Signal.bits) s
  exact ⟨o, (exec_decodeCell_asCall i s).symm.trans ho, hc⟩

theorem State.Inv.of_outputs {s : State} {o : Outputs} (hs : s.outputs = some o) (ho : o.coherent = true) : s.Inv := by
  intro o' ho'
  obtain rfl : o = o' := Option.some.inj (hs.symm.trans ho')
  exact ho

/-- An evaluation establishes the invariant, whatever the state before it. -/
theorem inv_of_exec {i : Instr} {s t : State} (h : exec i s = .next t) : t.Inv ∧ t.wideDemuxOrder = s.wideDemuxOrder := by
  obtain ⟨o, ho, hc⟩ := exec_gives_coherent i s
  obtain rfl : { s with outputs := some o } = t := Host.Outcome.next.inj (ho.symm.trans h)
  exact ⟨.of_outputs rfl hc, rfl⟩

end Sys2Proof.Machine

open Sys2Proof Sys2Proof.Machine

/-- Settles O11: an idle step changes nothing, and any other step is an evaluation. -/
theorem stepKeepsTheInvariant : Obligations.StepKeepsTheInvariant := by
  intro s t hs ht
  obtain ⟨-, hidle⟩ | ⟨r, rs, -, hexec⟩ := step_cases s
  · obtain rfl : s = t := Host.Outcome.next.inj (hidle.symm.trans ht)
    exact ⟨hs, rfl⟩
  · obtain ⟨hinv, horder⟩ := inv_of_exec (hexec.symm.trans ht)
    exact ⟨hinv, horder.trans (s.withRequests_wideDemuxOrder rs)⟩

/-- Settles O39: each line is a `mux16` of the one before. -/
theorem aluComputesTheEightLines : Obligations.AluComputesTheEightLines := by
  intro x y zx nx zy ny f no s
  refine alu_gives ?_ s
  rw [aluOf_eq_mux, candidateOf_eq_mux, preconditionOf_eq_muxes, preconditionOf_eq_muxes]

/-- Settles O40: the status output is that of the result, and says that the result is 0. -/
theorem zeroOutputMeansResultZero : Obligations.ZeroOutputMeansResultZero := by
  intro x y zx nx zy ny f no s
  exact ⟨_, _, _, alu_gives rfl s, rfl, zeroOf_eq_true_iff _⟩

/-- Settles O41; the rule's own example is the sum `0x7FFF + 1`, which wraps to `0x8000`. -/
theorem negativeOutputIsTheSignBit : Obligations.NegativeOutputIsTheSignBit := by
  refine ⟨fun x y zx nx zy ny f no s => ?_, fun s => alu_gives rfl s⟩
  exact ⟨_, _, _, alu_gives rfl s, rfl, negativeOf_eq_true_iff_sval _, negativeOf_eq_true_iff_val _⟩

/-- Settles O42: the status pairs by the result, the comparison by the readings of the difference, and the rule's
counterexample `0x8000 - 1`, which wraps to `0x7FFF`. -/
theorem statusOutcomes : Obligations.StatusOutcomes := by
  refine ⟨fun x y zx nx zy ny f no s => ?_, fun x y s => ?_, fun s => alu_gives (aluOf_sub _ _) s⟩
  · exact ⟨_, _, _, alu_gives rfl s, zeroOf_and_negativeOf _, status_zero_iff _, status_negative_iff _,
      status_positive_iff _⟩
  · refine ⟨_, _, alu_gives (aluOf_sub x y) s, zeroOf_sub_eq_true_iff x y, ?_⟩
    rw [negativeOf_eq_true_iff_sval]
    exact sval_sub_neg_iff_lt_iff x y

/-- Settles O38: the four cases of preconditioning, and the result by the preconditioned operands. -/
theorem operandsAreZeroedThenComplemented : Obligations.OperandsAreZeroedThenComplemented := by
  refine ⟨fun v => ⟨preconditionOf_false_false v, preconditionOf_false_true v, preconditionOf_true_false v,
    preconditionOf_true_true v, sval_notBusOf (by decide) v, preconditionOf_eq_muxes v⟩,
    fun x y zx nx zy ny f no s => ?_⟩
  exact (alu_gives rfl s).trans (alu_gives (aluOf_preconditionOf x y zx nx zy ny f no) s).symm

/-- Settles O43: an evaluation gives one value, whose status outputs are functions of its result. -/
theorem statusOutputsDependOnTheResultAlone : Obligations.StatusOutputsDependOnTheResultAlone := by
  intro x y x' y' zx nx zy ny f no zx' nx' zy' ny' f' no' s s' out zero negative zero' negative' h h'
  obtain ⟨rfl, rfl⟩ := status_of_alu_gives h
  obtain ⟨rfl, rfl⟩ := status_of_alu_gives h'
  exact ⟨rfl, rfl⟩

/-- Settles O44: the complement as arithmetic, and the laws of bitwise operations. -/
theorem identitiesOfComplementAndAddition : Obligations.IdentitiesOfComplementAndAddition := by
  intro u v
  exact ⟨notBusOf_eq_neg v, BitVec.neg_eq_not_add v, and_ones v, BitVec.and_zero, adderOf_ones v, notBusOf_notBusOf v,
    notBusOf_andBusOf_notBusOf u v⟩
end

section
/-! SUPPORT. The repertoire of the ALU (spec/46_alu_operations.md R170 to R187): a control word row by its row of the table and
its result bus, and the result of each repertoire word.  The operands have equal roles, so a word of `y` is the word of `x` with
the two pairs of Bits exchanged. -/

namespace Sys2Proof.Machine

/-! ## Control word rows (R59, R64) -/

/-- The row of a control word is the `alu` call with its six Bits (R64). -/
theorem exec_controlRow (zx nx zy ny f no : Bit) (x y : Bus 16) (s : State) :
    exec (controlRow zx nx zy ny f no x y) s = exec (.alu x y zx nx zy ny f no) s := by
  cases zx <;> cases nx <;> cases zy <;> cases ny <;> cases f <;> cases no <;> rfl

/-- Two facts about a control word row give all of its rule: it stands at its word in the table, and the word's result bus is
the closed form. -/
theorem ControlWordGives.of_controlOf {ctl : BitVec 6} {row : Bus 16 → Bus 16 → Instr} {form : Bus 16 → Bus 16 → Bus 16}
    (hrow : ∀ x y,
      controlRow (bitAt ctl 0) (bitAt ctl 1) (bitAt ctl 2) (bitAt ctl 3) (bitAt ctl 4) (bitAt ctl 5) x y = row x y)
    (hform : ∀ x y, controlOf ctl x y = form x y) : ControlWordGives ctl row form := by
  intro x y s
  have hcall := exec_controlRow (bitAt ctl 0) (bitAt ctl 1) (bitAt ctl 2) (bitAt ctl 3) (bitAt ctl 4) (bitAt ctl 5) x y s
  rw [hrow] at hcall
  refine ⟨?_, ?_, hcall.symm⟩
  · rw [← hrow]
    exact decode_encodeControl ctl x y
  · rw [← zeroOf_eq]
    exact hcall.trans (alu_gives (hform x y) s)

/-! ## The results of the repertoire words -/

theorem candidateOf_comm (x y : Bus 16) (f : Bit) : candidateOf x y f = candidateOf y x f := by
  cases f
  · exact BitVec.and_comm x y
  · exact adderOf_comm x y

/-- The two operands, each with its zero Bit and complement Bit, may be exchanged. -/
theorem aluOf_comm (x y : Bus 16) (zx nx zy ny f no : Bit) :
    aluOf x y zx nx zy ny f no = aluOf y x zy ny zx nx f no := by
  rw [aluOf_eq_mux, aluOf_eq_mux, candidateOf_comm]

/-- An operand that is zeroed and then complemented stands for -1, the bus of all ones. -/
theorem aluOf_neg_one_right (x y : Bus 16) (zx nx f no : Bit) :
    aluOf x y zx nx true true f no = aluOf x (-1#16) zx nx false false f no := by
  simp only [aluOf_eq_mux, preconditionOf_true_true, preconditionOf_false_false, BitVec.neg_one_eq_allOnes]

theorem aluOf_neg_one_left (x y : Bus 16) (zy ny f no : Bit) :
    aluOf x y true true zy ny f no = aluOf (-1#16) y false false zy ny f no := by
  rw [aluOf_comm, aluOf_neg_one_right, aluOf_comm]

section
variable (x y : Bus 16)

/-- The word `001100` computes `x & -1`. -/
theorem aluOf_pass : aluOf x y false false true true false false = x := by
  rw [aluOf_neg_one_right, BitVec.neg_one_eq_allOnes]
  exact BitVec.and_allOnes

/-- The word `001101` complements what `001100` passes. -/
theorem aluOf_complement : aluOf x y false false true true false true = ~~~x := congrArg notBusOf (aluOf_pass x y)

/-- The word `001110` computes `x + -1`. -/
theorem aluOf_decrement : aluOf x y false false true true true false = x - 1#16 :=
  (aluOf_neg_one_right ..).trans (sub_eq_add_neg x 1#16).symm

/-- The word `001111` complements what `001110` computes (R161 (a)). -/
theorem aluOf_negate : aluOf x y false false true true true true = -x := by
  have hline : aluOf x y false false true true true true = notBusOf (aluOf x y false false true true true false) := rfl
  rw [hline, aluOf_decrement, notBusOf_eq_neg]
  ring

/-- The word `011111` computes `!(!x + -1)`, the difference of `x` and -1. -/
theorem aluOf_increment : aluOf x y false true true true true true = x + 1#16 :=
  (aluOf_neg_one_right ..).trans ((aluOf_sub x (-1#16)).trans (sub_neg_eq_add x 1#16))

/-- The word `010101` computes `!(!x & !y)`. -/
theorem aluOf_or : aluOf x y false true false true false true = x ||| y := notBusOf_andBusOf_notBusOf x y

/-- The word `111010` computes `-1 + 0`. -/
theorem aluOf_neg_one : aluOf x y true true true false true false = -1#16 :=
  (aluOf_neg_one_left ..).trans (adderOf_zeroBus (-1#16))

/-- The word `111111` negates -1. -/
theorem aluOf_one : aluOf x y true true true true true true = 1#16 :=
  (aluOf_neg_one_left ..).trans ((aluOf_negate (-1#16) y).trans (neg_neg 1#16))

end

end Sys2Proof.Machine

open Sys2Proof Sys2Proof.Machine

/-- Settles O45: the constants are results on operands 0 and -1; the words of `y` are those of `x` by
exchange of the operands. -/
theorem repertoireConstantsAndComplements : Obligations.RepertoireConstantsAndComplements := by
  refine ⟨?zero, ?one, ?neg1, ?x, ?y, ?notX, ?notY, ?negX, ?negY⟩
    <;> refine .of_controlOf (fun _ _ => rfl) fun x y => ?_
  case zero => rfl
  case one => exact aluOf_one x y
  case neg1 => exact aluOf_neg_one x y
  case x => exact aluOf_pass x y
  case y => exact (aluOf_comm ..).trans (aluOf_pass y x)
  case notX => exact aluOf_complement x y
  case notY => exact (aluOf_comm ..).trans (aluOf_complement y x)
  case negX => exact aluOf_negate x y
  case negY => exact (aluOf_comm ..).trans (aluOf_negate y x)

/-- Settles O46: `x + y` and `x & y` are the candidates themselves; the words of `y` and `y - x` are those of `x` and `x - y` by
exchange of the operands. -/
theorem repertoireArithmeticAndLogic : Obligations.RepertoireArithmeticAndLogic := by
  refine ⟨?incX, ?incY, ?decX, ?decY, ?add, ?subXY, ?subYX, ?and, ?or⟩
    <;> refine .of_controlOf (fun _ _ => rfl) fun x y => ?_
  case incX => exact aluOf_increment x y
  case incY => exact (aluOf_comm ..).trans (aluOf_increment y x)
  case decX => exact aluOf_decrement x y
  case decY => exact (aluOf_comm ..).trans (aluOf_decrement y x)
  case add => rfl
  case subXY => exact aluOf_sub x y
  case subYX => exact (aluOf_comm ..).trans (aluOf_sub y x)
  case and => rfl
  case or => exact aluOf_or x y
end

section
/-! SUPPORT. The control words outside the repertoire (spec/47_alu_control_words.md R200 to R245), by the derivation the rules
give: what the candidate is when one operand is preconditioned to 0 or -1, and that a word with `no` = 1 is the complement of the
word with `no` = 0.  A word that preconditions `x` to the constant is one that preconditions `y`, with the
operands exchanged. -/

namespace Sys2Proof.Machine

/-! ## One operand preconditioned to a constant -/

/-- The last Bit of the word complements the result (R154). -/
theorem aluOf_no_true {x y out : Bus 16} {zx nx zy ny f : Bit} (h : aluOf x y zx nx zy ny f false = out) :
    aluOf x y zx nx zy ny f true = notBusOf out := congrArg notBusOf h

theorem aluOf_and_zero (x y : Bus 16) (zx nx : Bit) : aluOf x y zx nx true false false false = 0#16 := BitVec.and_zero

section
variable {x y x2 : Bus 16} {zx nx : Bit} (hx2 : preconditionOf x zx nx = x2)
include hx2

theorem aluOf_add_zero : aluOf x y zx nx true false true false = x2 := by
  rw [← hx2]
  exact adderOf_zeroBus _

theorem aluOf_and_neg_one : aluOf x y zx nx true true false false = x2 := by
  rw [← aluOf_preconditionOf, hx2]
  exact aluOf_pass x2 y

theorem aluOf_add_neg_one : aluOf x y zx nx true true true false = x2 - 1#16 := by
  rw [← aluOf_preconditionOf, hx2]
  exact aluOf_decrement x2 y

end

/-! ## Forms of `x`, and of both operands -/

section
variable (x y : Bus 16)

/-- The word `011011` computes `!(!x + 0)` (R218). -/
theorem aluOf_add_zero_complemented_twice : aluOf x y false true true false true true = x :=
  (aluOf_no_true (aluOf_add_zero (preconditionOf_false_true x))).trans (notBusOf_notBusOf x)

/-- The word `011101` computes `!(!x & -1)` (R220). -/
theorem aluOf_and_neg_one_complemented_twice : aluOf x y false true true true false true = x :=
  (aluOf_no_true (aluOf_and_neg_one (preconditionOf_false_true x))).trans (notBusOf_notBusOf x)

/-- The word `000101` computes `!(x & !y)` (R203). -/
theorem aluOf_implication : aluOf x y false false false true false true = ~~~x ||| y := by
  have hline : aluOf x y false false false true false true = ~~~(x &&& ~~~y) := rfl
  rw [hline, BitVec.not_and, BitVec.not_not]

/-- The word `000011` computes `!(x + y)` (R201). -/
theorem aluOf_add_complemented : aluOf x y false false false false true true = -x - y - 1#16 := by
  have hline : aluOf x y false false false false true true = notBusOf (x + y) := rfl
  rw [hline, notBusOf_eq_neg, neg_add']

/-- The word `000110` computes `x + !y`, the difference with a borrow of one (R204). -/
theorem aluOf_sub_borrow : aluOf x y false false false true true false = x - y - 1#16 := by
  have hline : aluOf x y false false false true true false = x + notBusOf y := rfl
  rw [hline, notBusOf_eq_neg]
  ring

theorem notBusOf_sub_one : notBusOf x - 1#16 = -x - 2#16 := by
  rw [notBusOf_eq_neg]
  exact sub_sub (-x) 1#16 1#16

/-- The word `011110` computes `!x + -1` (R221). -/
theorem aluOf_decrement_complement : aluOf x y false true true true true false = -x - 2#16 :=
  (aluOf_add_neg_one (preconditionOf_false_true x)).trans (notBusOf_sub_one x)

/-- The word `010110` computes `!x + !y`, the word `000110` on `!x` (R213). -/
theorem aluOf_add_complements : aluOf x y false true false true true false = -x - y - 2#16 := by
  have hword : aluOf x y false true false true true false = notBusOf x - y - 1#16 := aluOf_sub_borrow (notBusOf x) y
  rw [hword, sub_right_comm, notBusOf_sub_one, sub_right_comm]

/-- The word `010111` is the difference of `x` and `!y`: the sum with a carry-in of one (R214). -/
theorem aluOf_add_carry : aluOf x y false true false true true true = x + y + 1#16 := by
  have hword : aluOf x y false true false true true true = x - notBusOf y := aluOf_sub x (notBusOf y)
  rw [hword, notBusOf_eq_neg]
  ring

end

end Sys2Proof.Machine

open Sys2Proof Sys2Proof.Machine

/-- Settles O47: the candidate is `0`, or it is -1 and complemented. -/
theorem otherControlWordsGivingZero : Obligations.OtherControlWordsGivingZero := by
  refine ⟨?w001000, ?w011000, ?w100000, ?w100100, ?w101000, ?w101100, ?w101111, ?w111000, ?w111011, ?w111101⟩
    <;> refine .of_controlOf (fun _ _ => rfl) fun x y => ?_
  case w001000 | w011000 | w101000 | w111000 => exact aluOf_and_zero ..
  case w100000 | w100100 => exact (aluOf_comm ..).trans (aluOf_and_zero ..)
  case w101100 => exact aluOf_and_neg_one (preconditionOf_true_false x)
  case w101111 => exact aluOf_no_true (aluOf_add_neg_one (preconditionOf_true_false x))
  case w111011 => exact aluOf_no_true (aluOf_neg_one x y)
  case w111101 => exact aluOf_no_true (aluOf_and_neg_one (preconditionOf_true_true x))

/-- Settles O48: the candidate is -1, or it is `0` and complemented. -/
theorem otherControlWordsGivingMinusOne : Obligations.OtherControlWordsGivingMinusOne := by
  refine ⟨?w001001, ?w011001, ?w100001, ?w100101, ?w101001, ?w101011, ?w101101, ?w101110, ?w111001, ?w111100⟩
    <;> refine .of_controlOf (fun _ _ => rfl) fun x y => ?_
  case w001001 | w011001 | w101001 | w111001 => exact aluOf_no_true (aluOf_and_zero ..)
  case w100001 | w100101 => exact aluOf_no_true ((aluOf_comm ..).trans (aluOf_and_zero ..))
  case w101011 => exact aluOf_no_true (aluOf_add_zero (preconditionOf_true_false x))
  case w101101 => exact aluOf_no_true (aluOf_and_neg_one (preconditionOf_true_false x))
  case w101110 => exact aluOf_add_neg_one (preconditionOf_true_false x)
  case w111100 => exact aluOf_and_neg_one (preconditionOf_true_true x)

/-- Settles O49: adding 0 and masking with -1 pass the preconditioned operand, and two complements cancel. -/
theorem otherControlWordsPassingOneOperand : Obligations.OtherControlWordsPassingOneOperand := by
  refine ⟨?w001010, ?w011011, ?w011101, ?w001011, ?w011010, ?w011100, ?w100010, ?w100111, ?w110101, ?w100011,
    ?w100110, ?w110100⟩
    <;> refine .of_controlOf (fun _ _ => rfl) fun x y => ?_
  case w001010 => exact aluOf_add_zero (preconditionOf_false_false x)
  case w011011 => exact aluOf_add_zero_complemented_twice x y
  case w011101 => exact aluOf_and_neg_one_complemented_twice x y
  case w001011 => exact aluOf_no_true (aluOf_add_zero (preconditionOf_false_false x))
  case w011010 => exact aluOf_add_zero (preconditionOf_false_true x)
  case w011100 => exact aluOf_and_neg_one (preconditionOf_false_true x)
  case w100010 => exact (aluOf_comm ..).trans (aluOf_add_zero (preconditionOf_false_false y))
  case w100111 => exact (aluOf_comm ..).trans (aluOf_add_zero_complemented_twice y x)
  case w110101 => exact (aluOf_comm ..).trans (aluOf_and_neg_one_complemented_twice y x)
  case w100011 => exact (aluOf_comm ..).trans (aluOf_no_true (aluOf_add_zero (preconditionOf_false_false y)))
  case w100110 => exact (aluOf_comm ..).trans (aluOf_add_zero (preconditionOf_false_true y))
  case w110100 => exact (aluOf_comm ..).trans (aluOf_and_neg_one (preconditionOf_false_true y))

/-- Settles O50: three words are their closed forms as written, the other three follow by De Morgan. -/
theorem otherControlWordsOfLogic : Obligations.OtherControlWordsOfLogic := by
  refine ⟨?w000001, ?w000100, ?w000101, ?w010000, ?w010001, ?w010100⟩
    <;> refine .of_controlOf (fun _ _ => rfl) fun x y => ?_
  case w000001 | w000100 | w010000 => rfl
  case w000101 => exact aluOf_implication x y
  case w010001 => exact (aluOf_comm ..).trans ((aluOf_implication y x).trans (BitVec.or_comm ..))
  case w010100 => exact BitVec.not_or.symm

/-- Settles O51: the complement reads as `-v - 1`; the other operand of the last three words is -1. -/
theorem otherControlWordsOfArithmetic : Obligations.OtherControlWordsOfArithmetic := by
  refine ⟨?w000011, ?w000110, ?w010010, ?w010110, ?w010111, ?w011110, ?w110110, ?w111110⟩
    <;> refine .of_controlOf (fun _ _ => rfl) fun x y => ?_
  case w000011 => exact aluOf_add_complemented x y
  case w000110 => exact aluOf_sub_borrow x y
  case w010010 => exact (aluOf_comm ..).trans (aluOf_sub_borrow y x)
  case w010110 => exact aluOf_add_complements x y
  case w010111 => exact aluOf_add_carry x y
  case w011110 => exact aluOf_decrement_complement x y
  case w110110 => exact (aluOf_comm ..).trans (aluOf_decrement_complement y x)
  case w111110 => exact aluOf_add_neg_one (preconditionOf_true_true x)
end

section
/-! SUPPORT. The sizes of the networks: a construction adds as many `nand` cells as its pieces add together, whatever network it
starts on and whatever wires it is given (spec/70_reset_and_hazards.md R296). -/

namespace Sys2Proof.Machine

/-! ## The two halves of a construction -/

section
variable {α β : Type} (b : Build α) (c : α → Build β) (f : α → β) (r : α) (n : Net)

/-- What a construction answers when it starts on `n`. -/
def Build.result : α := (b.run n).1

/-- The network a construction leaves when it starts on `n`. -/
def Build.net : Net := (b.run n).2

@[simp] theorem Build.result_bind : (b >>= c : Build β).result n = (c (b.result n)).result (b.net n) := rfl
@[simp] theorem Build.net_bind : (b >>= c : Build β).net n = (c (b.result n)).net (b.net n) := rfl
@[simp] theorem Build.result_map : (f <$> b : Build β).result n = f (b.result n) := rfl
@[simp] theorem Build.net_map : (f <$> b : Build β).net n = b.net n := rfl
@[simp] theorem Build.result_pure : (pure r : Build α).result n = r := rfl
@[simp] theorem Build.net_pure : (pure r : Build α).net n = n := rfl

theorem netOf_eq_net (order : WideDemuxOrder) (c : Cell) : netOf order c = (structureOf order c).net Net.empty := rfl

end

variable (n : Net) (a b c i s s0 s1 s2 : Wire) (as bs : List Wire)

/-! ## The wires a cell starts from -/

@[simp] theorem Net.size_empty : Net.empty.size = 0 := rfl
@[simp] theorem length_tieBus {w : Nat} (b : Bus w) : (tieBus b).length = w := by simp [tieBus]
@[simp] theorem length_inputWires (off w : Nat) : (inputWires off w).length = w := by simp [inputWires]

/-! ## Scalar cells -/

@[simp] theorem size_nandS : ((nandS a b).net n).size = n.size + 1 := rfl
@[simp] theorem size_notS : ((notS a).net n).size = n.size + 1 := rfl
@[simp] theorem size_andS : ((andS a b).net n).size = n.size + 2 := by simp [andS]
@[simp] theorem size_orS : ((orS a b).net n).size = n.size + 5 := by simp [orS]
@[simp] theorem size_xorS : ((xorS a b).net n).size = n.size + 15 := by simp [xorS]
@[simp] theorem size_muxS : ((muxS a b s).net n).size = n.size + 27 := by simp [muxS]
@[simp] theorem size_demuxS : ((demuxS i s).net n).size = n.size + 5 := by simp [demuxS]
@[simp] theorem size_halfAdderS : ((halfAdderS a b).net n).size = n.size + 17 := by simp [halfAdderS]
@[simp] theorem size_fullAdderS : ((fullAdderS a b c).net n).size = n.size + 39 := by simp [fullAdderS]

/-! ## Bus cells: as many copies of a scalar cell, and as many wires, as the shorter operand has wires -/

@[simp] theorem length_lift1S (g : Wire → Build Wire) : ((lift1S g as).result n).length = as.length := by
  induction as generalizing n with
  | nil => rfl
  | cons a as ih => simp [lift1S, ih]

@[simp] theorem length_lift2S (g : Wire → Wire → Build Wire) :
    ((lift2S g as bs).result n).length = min as.length bs.length := by
  induction as generalizing bs n with
  | nil => simp [lift2S]
  | cons a as ih =>
    cases bs with
    | nil => rfl
    | cons b bs => simp [lift2S, ih, Nat.add_min_add_right]

theorem size_lift1S {g : Wire → Build Wire} {k : Nat} (hg : ∀ n a, ((g a).net n).size = n.size + k) :
    ((lift1S g as).net n).size = n.size + as.length * k := by
  induction as generalizing n with
  | nil => simp [lift1S]
  | cons a as ih =>
    simp only [lift1S, Build.net_bind, Build.net_pure, ih, hg, List.length_cons]
    ring

theorem size_lift2S {g : Wire → Wire → Build Wire} {k : Nat} (hg : ∀ n a b, ((g a b).net n).size = n.size + k) :
    ((lift2S g as bs).net n).size = n.size + min as.length bs.length * k := by
  induction as generalizing bs n with
  | nil => simp [lift2S]
  | cons a as ih =>
    cases bs with
    | nil => simp [lift2S]
    | cons b bs =>
      simp only [lift2S, Build.net_bind, Build.net_pure, ih, hg, List.length_cons, Nat.add_min_add_right]
      ring

@[simp] theorem size_notBusS : ((lift1S notS as).net n).size = n.size + as.length * 1 := size_lift1S n as size_notS

@[simp] theorem size_andBusS : ((lift2S andS as bs).net n).size = n.size + min as.length bs.length * 2 :=
  size_lift2S n as bs size_andS

@[simp] theorem size_orBusS : ((lift2S orS as bs).net n).size = n.size + min as.length bs.length * 5 :=
  size_lift2S n as bs size_orS

@[simp] theorem size_xorBusS : ((lift2S xorS as bs).net n).size = n.size + min as.length bs.length * 15 :=
  size_lift2S n as bs size_xorS

@[simp] theorem size_muxBusS : ((muxBusS as bs s).net n).size = n.size + min as.length bs.length * 27 :=
  size_lift2S n as bs fun n a b => size_muxS n a b s

@[simp] theorem length_muxBusS : ((muxBusS as bs s).result n).length = min as.length bs.length := length_lift2S ..

/-! ## Adders -/

@[simp] theorem length_rippleS : ((rippleS as bs).result n).2.length = min as.length bs.length := by
  induction as generalizing bs n with
  | nil => simp [rippleS]
  | cons a as ih =>
    cases bs with
    | nil => rfl
    | cons b bs => simp [rippleS, ih, Nat.add_min_add_right]

@[simp] theorem size_rippleS : ((rippleS as bs).net n).size = n.size + min as.length bs.length * 39 := by
  induction as generalizing bs n with
  | nil => simp [rippleS]
  | cons a as ih =>
    cases bs with
    | nil => rfl
    | cons b bs =>
      simp only [rippleS, Build.net_bind, Build.net_pure, ih, size_fullAdderS, List.length_cons, Nat.add_min_add_right]
      ring

@[simp] theorem length_adderS : ((adderS as bs).result n).length = min as.length bs.length := length_rippleS ..

@[simp] theorem size_adderS : ((adderS as bs).net n).size = n.size + min as.length bs.length * 39 := size_rippleS ..

@[simp] theorem size_incrementerS (w : Nat) : ((incrementerS w as).net n).size = n.size + min as.length w * 39 := by
  simp [incrementerS]

/-! ## Wide cells -/

/-- The balanced tree over eight wires has seven cells (D7). -/
theorem size_tree8S {g : Wire → Wire → Build Wire} {k : Nat} (hg : ∀ n a b, ((g a b).net n).size = n.size + k)
    (h : as.length = 8) : ((tree8S g as).net n).size = n.size + 7 * k := by
  match as, h with
  | [a0, a1, a2, a3, a4, a5, a6, a7], _ =>
    simp only [tree8S, Build.net_bind, hg]
    ring

theorem size_or8wayS (h : as.length = 8) : ((tree8S orS as).net n).size = n.size + 35 := size_tree8S n as size_orS h

theorem size_and8wayS (h : as.length = 8) : ((tree8S andS as).net n).size = n.size + 14 := size_tree8S n as size_andS h

theorem size_or16wayS (h : as.length = 16) : ((or16wayS as).net n).size = n.size + 75 := by
  simp [or16wayS, size_or8wayS, h]

@[simp] theorem size_demux4wayTreeS : ((demux4wayTreeS i s0 s1).net n).size = n.size + 15 := by simp [demux4wayTreeS]

@[simp] theorem size_demux8wayTreeS : ((demux8wayTreeS i s0 s1 s2).net n).size = n.size + 35 := by simp [demux8wayTreeS]

/-! ## The ALU -/

theorem length_preconditionS (h : as.length = 16) : ((preconditionS as s0 s1).result n).length = 16 := by
  simp [preconditionS, h]

/-- Two `mux16` cells and a `not16` (D10). -/
theorem size_preconditionS (h : as.length = 16) : ((preconditionS as s0 s1).net n).size = n.size + 880 := by
  simp [preconditionS, h]

end Sys2Proof.Machine

open Sys2Proof Sys2Proof.Machine

/-- Settles O59: the size of a cell's network is the sum of the sizes of its pieces; the parameter only reorders the output
wires. -/
theorem networkSizesAreThoseOfTheTable : Obligations.NetworkSizesAreThoseOfTheTable := by
  intro order c
  rw [netOf_eq_net]
  cases c
  case or8way | and8way | or16way => simp [structureOf, nandCount, size_or8wayS, size_and8wayS, size_or16wayS]
  case mux4way16 | mux8way16 => simp [structureOf, nandCount, mux4way16S, mux8way16S]
  case alu => simp [structureOf, nandCount, aluS, length_preconditionS, size_preconditionS, size_or16wayS]
  all_goals simp [structureOf, nandCount]
end

section
/-! SUPPORT. The idle step and the reset state (spec/60_exceptions.md R278; spec/70_reset_and_hazards.md R291, R298). -/

open Sys2Proof Sys2Proof.Machine

/-- Settles O3: a step that makes an evaluation needs a request. -/
theorem stepWithNothingPresentedChangesNothing : Obligations.StepWithNothingPresentedChangesNothing := by
  intro s h
  obtain ⟨-, hidle⟩ | ⟨r, rs, hr, -⟩ := step_cases s
  · exact hidle
  · simp [h] at hr

/-- Settles O10: at reset no outputs are shown (R30), so none can be incoherent. -/
theorem resetMeetsTheInvariant : Obligations.ResetMeetsTheInvariant := fun _ ho => nomatch ho

/-- Settles O12: the idle step is that of O3, and any other step takes the front request. -/
theorem stepAlwaysAnswersANextState : Obligations.StepAlwaysAnswersANextState := by
  refine fun s => ⟨stepWithNothingPresentedChangesNothing s, fun r rs h => ?_⟩
  obtain ⟨t, ht, hreq, -⟩ := step_of_requests_cons h
  exact ⟨t, ht, hreq⟩
end
